-- ==== Sys2Proof/Word.lean ====
section
/-! DEFINITION. The word types of the decoder block (00_scope.md R5, R6). -/

namespace Sys2Proof

/-- The Instruction Word: 16 bits, bit 0 the least significant (R5 `WORD_WIDTH`, R6). -/
abbrev Word := BitVec 16

/-- One byte of the input stream or of a rendered line (20_memory.md R32, 40_datapath.md R72). -/
abbrev Byte := BitVec 8

/-- A register index as it stands in a word: 3 bits, 0 to 7 (30_encoding.md R41). The block holds no registers (10_state.md R14). -/
abbrev RegIx := BitVec 3

end Sys2Proof
end

