-- ==== Sys2Proof/Config.lean ====
section
/-! DEFINITION. The build parameters of 00_scope.md R5 as a type, and the constants the spec leaves open.
This hardware's values stand in Machine/Params.lean. -/

namespace Sys2Proof

/-- `FIELD_CONVENTION` (00_scope.md R5, 30_encoding.md R45). -/
inductive FieldConvention where
  | bias
  | twosComplement
  deriving DecidableEq, Repr

/-- `LINE_MAX`: the most bytes a line has, counting the newline (00_scope.md R5, 40_datapath.md R73). -/
abbrev lineMax : Nat := 19

/-- The build parameters of 00_scope.md R5 that can differ between builds. None changes while the block runs. -/
structure Build where
  /-- `LATENCY`: cycles from an input transaction to its output transaction. OPEN (D2). -/
  latency : Nat
  /-- `LANES`: the number of independent decode lanes, 1 or more. OPEN, default 1 (D3). -/
  laneCount : Nat
  /-- There is at least one lane (R5): a build with none cannot be written down. -/
  lanes_pos : 1 ≤ laneCount
  /-- `UNDEFINED_OPCODES`: the opcodes the dispatcher rejects (D12); only membership matters. -/
  undefinedOpcodes : List (BitVec 4)
  /-- `FIELD_CONVENTION` (D18). -/
  fieldConvention : FieldConvention
  /-- `HEX_UPPER` (D9). -/
  hexUpper : Bool
  /-- `FIRST_BYTE_IS_HIGH`: belongs to the collaborator's word assembly (D13). -/
  firstByteIsHigh : Bool
  deriving DecidableEq, Repr

/-- Which tokens name a value of `IO_CAUSE`, beside token 0. The type is OPEN (00_scope.md R5, D11; 93 I5), so a constant without a body is
the argument: how many values it has and which, nothing can prove. Log entry 7. -/
opaque Config.namesIoCause : Nat → Bool

/-- `IO_CAUSE`: the cause an `IOFailure` carries (00_scope.md R5, 93 I5), an opaque type with a value or more. A cause is carried and never read.
DESIGN CHOICE (log entry 7; safe). -/
structure IoCause where
  token : Nat
  named : token = 0 ∨ Config.namesIoCause token = true
  deriving DecidableEq, Repr

/-- `LATENCY` of this hardware: OPEN (R5, D2), so a constant without a body. Log entry 4. -/
opaque Config.latency : Nat

/-- The unspecified value of `out_status` at the `n`th draw (10_state.md R19, 93 I6). Log entry 8. -/
opaque Config.freeStatus : Nat → BitVec 2

/-- The unspecified value of `out_len` at the `n`th draw (10_state.md R19, 93 I6). Log entry 8. -/
opaque Config.freeLen : Nat → BitVec 5

/-- The unspecified byte of `out_text` at a draw and a position (10_state.md R19, 93 I6). Log entry 8. -/
opaque Config.freeByte : Nat → Nat → Byte

/-- The value of `in_word` when no word is presented, at the `n`th draw (10_state.md R18). Log entry 9. -/
opaque Config.freeWord : Nat → Word

end Sys2Proof
end

