-- ==== Sys2Proof/Machine/Params.lean ====
section
/-! DEFINITION. The values of the build parameters this hardware takes (00_scope.md R5, middle column). -/

namespace Sys2Proof

/-- This hardware: `LATENCY` OPEN (log entry 4), `LANES` at the spec's default 1 (log entry 5), no opcode rejected, biased
fields, upper-case hex digits, the first byte read is the high one (00_scope.md R5). -/
def Build.hardware : Build where
  latency := Config.latency
  laneCount := 1
  lanes_pos := Nat.le_refl 1
  undefinedOpcodes := []
  fieldConvention := .bias
  hexUpper := true
  firstByteIsHigh := true

end Sys2Proof
end

