-- ==== Sys2Proof/Syntax.lean ====
section
/-! DEFINITION. The 29 instruction forms (30_encoding.md R52) as syntax, their families (R49) and form names. -/

namespace Sys2Proof

/-- One constructor per row of spec/opcode_table.json. Registers are 3-bit indices (R41); an immediate or offset stands as
the raw field of the word (R44), because its value is a matter of the corrector (R45) and the build's convention. -/
inductive Instr where
  | br (offset9 : BitVec 9)
  | brp (offset9 : BitVec 9)
  | brz (offset9 : BitVec 9)
  | brzp (offset9 : BitVec 9)
  | brn (offset9 : BitVec 9)
  | brnp (offset9 : BitVec 9)
  | brnz (offset9 : BitVec 9)
  | brnzp (offset9 : BitVec 9)
  | addReg (rdst rsrc1 rsrc2 : RegIx)
  | addImm (rdst rsrc1 : RegIx) (imm5 : BitVec 5)
  | ldb (rdr rbase : RegIx) (offset6 : BitVec 6)
  | stb (rsr rbase : RegIx) (offset6 : BitVec 6)
  | jsrr (rbase : RegIx)
  | jsr (offset11 : BitVec 11)
  | andReg (rdst rsrc1 rsrc2 : RegIx)
  | andImm (rdst rsrc1 : RegIx) (imm5 : BitVec 5)
  | ldr (rdr rbase : RegIx) (offset6 : BitVec 6)
  | str (rsr rbase : RegIx) (offset6 : BitVec 6)
  | rti
  | notReg (rdst rsrc : RegIx)
  | ldi (rdr rbase : RegIx) (offset6 : BitVec 6)
  | sti (rsr rbase : RegIx) (offset6 : BitVec 6)
  | jmp (rbase : RegIx)
  | ret
  | lshf (rdst rsrc : RegIx) (imm4 : BitVec 4)
  | rshfl (rdst rsrc : RegIx) (imm4 : BitVec 4)
  | rshfa (rdst rsrc : RegIx) (imm4 : BitVec 4)
  | lea (rdst : RegIx) (offset9 : BitVec 9)
  | trap (vec8 : BitVec 8)
  deriving DecidableEq, Repr

/-- A family: the set of words with one opcode (00_scope.md R11, 30_encoding.md R49). -/
inductive Family where
  | br | add | ldb | stb | jsr | and | ldr | str
  | rti | not | ldi | sti | jmp | shf | lea | trap
  deriving DecidableEq, Repr

/-- The 29 forms of 30_encoding.md R52, by name and without operands. -/
inductive Form where
  | br | brp | brz | brzp | brn | brnp | brnz | brnzp
  | addReg | addImm | ldb | stb | jsrr | jsr | andReg | andImm | ldr | str
  | rti | notReg | ldi | sti | jmp | ret | lshf | rshfl | rshfa | lea | trap
  deriving DecidableEq, Repr

end Sys2Proof
end

