-- ==== Sys2Proof/WellFormed.lean ====
section
/-! DEFINITION. Which terms of `Instr` stand for words. The widths of the fields are in the types; the one check left is
JMP's: a word with base register 7 is RET (30_encoding.md R51, R52; 42_control.md R86). -/

namespace Sys2Proof

/-- `Rbase` of JMP is 0 to 6 (42_control.md R86); every other form admits every value of its fields. -/
def Instr.wellFormed : Instr → Bool
  | .jmp rbase => rbase != 7#3
  | .br _ | .brp _ | .brz _ | .brzp _ | .brn _ | .brnp _ | .brnz _ | .brnzp _ => true
  | .addReg _ _ _ | .addImm _ _ _ | .andReg _ _ _ | .andImm _ _ _ => true
  | .ldb _ _ _ | .stb _ _ _ | .ldr _ _ _ | .str _ _ _ | .ldi _ _ _ | .sti _ _ _ | .lea _ _ => true
  | .jsrr _ | .jsr _ | .ret | .rti | .notReg _ _ => true
  | .lshf _ _ _ | .rshfl _ _ _ | .rshfa _ _ _ | .trap _ => true

end Sys2Proof
end

