-- ==== Sys2Proof/Decode.lean ====
section
/-! DEFINITION. The field extractor (40_datapath.md R64), the opcode map (30_encoding.md R49), the choice of the form (R51), the
decoder on words and on bytes, the form table (R52) with the ignored bits (R55), and the encoder. -/

namespace Sys2Proof

/-! ## The parallel field extractor -/

/-- `register_field(word, offset) = w[offset+2 : offset]` (40_datapath.md R64). -/
def registerField (w : Word) (offset : Nat) : RegIx := w.extractLsb' offset 3

/-- `w[offset+width-1 : offset]`, the raw value a biased field is corrected from (40_datapath.md R64). -/
def rawField (w : Word) (width offset : Nat) : BitVec width := w.extractLsb' offset width

/-- The Decoded Fields: wires that exist only while one word is decoded (10_state.md R21). -/
structure Fields where
  opcode : BitVec 4
  rA : RegIx
  rB : RegIx
  rC : RegIx
  /-- `b11`, which is also BR's `n`. -/
  b11 : Bool
  z : Bool
  p : Bool
  /-- `b5`: the immediate select of ADD and AND, and SHF's `a`. -/
  b5 : Bool
  /-- `b4`: SHF's `d`. -/
  b4 : Bool
  raw4 : BitVec 4
  raw5 : BitVec 5
  raw6 : BitVec 6
  raw9 : BitVec 9
  raw11 : BitVec 11
  vec8 : BitVec 8
  deriving DecidableEq, Repr

/-- Extract: every field of the word at once, whatever its opcode (40_datapath.md R63, R64; positions of 10_state.md R21). -/
def extract (w : Word) : Fields where
  opcode := rawField w 4 12
  rA := registerField w 9
  rB := registerField w 6
  rC := registerField w 0
  b11 := w.getLsbD 11
  z := w.getLsbD 10
  p := w.getLsbD 9
  b5 := w.getLsbD 5
  b4 := w.getLsbD 4
  raw4 := rawField w 4 0
  raw5 := rawField w 5 0
  raw6 := rawField w 6 0
  raw9 := rawField w 9 0
  raw11 := rawField w 11 0
  vec8 := rawField w 8 0

/-! ## Opcode map and form selection -/

/-- The opcode map (30_encoding.md R49), a closed match over the four opcode bits 15, 14, 13, 12 with one arm per opcode
and no default arm (40_datapath.md R66). -/
def familyOf (op : BitVec 4) : Family :=
  match op.getLsbD 3, op.getLsbD 2, op.getLsbD 1, op.getLsbD 0 with
  | false, false, false, false => .br
  | false, false, false, true => .add
  | false, false, true, false => .ldb
  | false, false, true, true => .stb
  | false, true, false, false => .jsr
  | false, true, false, true => .and
  | false, true, true, false => .ldr
  | false, true, true, true => .str
  | true, false, false, false => .rti
  | true, false, false, true => .not
  | true, false, true, false => .ldi
  | true, false, true, true => .sti
  | true, true, false, false => .jmp
  | true, true, false, true => .shf
  | true, true, true, false => .lea
  | true, true, true, true => .trap

/-- The opcode of a family, read from the table of 30_encoding.md R49. -/
def Family.opcode : Family → BitVec 4
  | .br => 0x0 | .add => 0x1 | .ldb => 0x2 | .stb => 0x3
  | .jsr => 0x4 | .and => 0x5 | .ldr => 0x6 | .str => 0x7
  | .rti => 0x8 | .not => 0x9 | .ldi => 0xA | .sti => 0xB
  | .jmp => 0xC | .shf => 0xD | .lea => 0xE | .trap => 0xF

/-- BR's form, by the condition bits n, z, p (42_control.md R85). -/
def branchForm (n z p : Bool) (offset9 : BitVec 9) : Instr :=
  match n, z, p with
  | false, false, false => .br offset9
  | false, false, true => .brp offset9
  | false, true, false => .brz offset9
  | false, true, true => .brzp offset9
  | true, false, false => .brn offset9
  | true, false, true => .brnp offset9
  | true, true, false => .brnz offset9
  | true, true, true => .brnzp offset9

/-- The form inside the family, by the tests of 30_encoding.md R51; a form keeps only the fields it uses (R52, R55). -/
def selectForm (F : Fields) : Instr :=
  match familyOf F.opcode with
  | .br => branchForm F.b11 F.z F.p F.raw9
  | .add => if F.b5 then .addImm F.rA F.rB F.raw5 else .addReg F.rA F.rB F.rC
  | .ldb => .ldb F.rA F.rB F.raw6
  | .stb => .stb F.rA F.rB F.raw6
  | .jsr => if F.b11 then .jsr F.raw11 else .jsrr F.rB
  | .and => if F.b5 then .andImm F.rA F.rB F.raw5 else .andReg F.rA F.rB F.rC
  | .ldr => .ldr F.rA F.rB F.raw6
  | .str => .str F.rA F.rB F.raw6
  | .rti => .rti
  | .not => .notReg F.rA F.rB
  | .ldi => .ldi F.rA F.rB F.raw6
  | .sti => .sti F.rA F.rB F.raw6
  | .jmp => if F.rB = 7#3 then .ret else .jmp F.rB
  | .shf =>
    if F.b4 then (if F.b5 then .rshfa F.rA F.rB F.raw4 else .rshfl F.rA F.rB F.raw4)
    else .lshf F.rA F.rB F.raw4
  | .lea => .lea F.rA F.raw9
  | .trap => .trap F.vec8

/-- The instruction a word is: total, since every word is in exactly one form (30_encoding.md R50, R54). -/
def decode (w : Word) : Instr := selectForm (extract w)

/-! ## Words from bytes -/

/-- A field's value at its place in a word: bits offset+n-1 to offset. -/
def placeField (offset : Nat) {n : Nat} (v : BitVec n) : Word := v.setWidth 16 <<< offset

/-- The collaborator's word assembly from two bytes in the order read (20_memory.md R32). -/
def assemble (firstByteIsHigh : Bool) (b0 b1 : Byte) : Word :=
  if firstByteIsHigh then placeField 8 b0 ||| placeField 0 b1 else placeField 8 b1 ||| placeField 0 b0

/-- The two bytes of a word in the order a collaborator with that setting reads them (20_memory.md R32). -/
def wordBytes (firstByteIsHigh : Bool) (w : Word) : List Byte :=
  if firstByteIsHigh then [w.extractLsb' 8 8, w.extractLsb' 0 8] else [w.extractLsb' 0 8, w.extractLsb' 8 8]

/-- Why bytes hold no word: there are none, or one is left alone (20_memory.md R33). -/
inductive DecodeReject where
  | noBytes
  | truncatedWord
  deriving DecidableEq, Repr

/-- Decode the first word of a byte list: the instruction and the bytes after it, or the reason there is none. -/
def decodeBytes (firstByteIsHigh : Bool) : List Byte → Except DecodeReject (Instr × List Byte)
  | [] => .error .noBytes
  | [_] => .error .truncatedWord
  | b0 :: b1 :: rest => .ok (decode (assemble firstByteIsHigh b0 b1), rest)

/-- The decoder's reading of an instruction whose bits are `w`, numbered as spec/opcode_table.json numbers them: `nbits` of
them, those above 0, laid out in this hardware's byte order and given to `decodeBytes`. -/
def decodeTableWord (nbits w : Nat) : Option Instr :=
  match decodeBytes Build.hardware.firstByteIsHigh
      (wordBytes Build.hardware.firstByteIsHigh (BitVec.ofNat 16 (w % 2 ^ nbits))) with
  | .ok (i, _) => some i
  | .error _ => none

/-! ## The form table -/

/-- The form of an instruction. -/
def Instr.form : Instr → Form
  | .br _ => .br | .brp _ => .brp | .brz _ => .brz | .brzp _ => .brzp
  | .brn _ => .brn | .brnp _ => .brnp | .brnz _ => .brnz | .brnzp _ => .brnzp
  | .addReg _ _ _ => .addReg | .addImm _ _ _ => .addImm
  | .ldb _ _ _ => .ldb | .stb _ _ _ => .stb
  | .jsrr _ => .jsrr | .jsr _ => .jsr
  | .andReg _ _ _ => .andReg | .andImm _ _ _ => .andImm
  | .ldr _ _ _ => .ldr | .str _ _ _ => .str
  | .rti => .rti | .notReg _ _ => .notReg
  | .ldi _ _ _ => .ldi | .sti _ _ _ => .sti
  | .jmp _ => .jmp | .ret => .ret
  | .lshf _ _ _ => .lshf | .rshfl _ _ _ => .rshfl | .rshfa _ _ _ => .rshfa
  | .lea _ _ => .lea | .trap _ => .trap

/-- The family a form belongs to (30_encoding.md R49, R51). -/
def Form.family : Form → Family
  | .br | .brp | .brz | .brzp | .brn | .brnp | .brnz | .brnzp => .br
  | .addReg | .addImm => .add
  | .andReg | .andImm => .and
  | .ldb => .ldb | .stb => .stb | .ldr => .ldr | .str => .str | .ldi => .ldi | .sti => .sti
  | .jsrr | .jsr => .jsr
  | .jmp | .ret => .jmp
  | .rti => .rti | .notReg => .not
  | .lshf | .rshfl | .rshfa => .shf
  | .lea => .lea | .trap => .trap

/-- A row of the table of 30_encoding.md R52. -/
structure FormRow where
  mnemonic : String
  matchBits : Word
  mask : Word
  /-- JMP's extra condition: w[8:6] is not 7. -/
  notBase7 : Bool := false
  deriving DecidableEq, Repr

/-- The table of 30_encoding.md R52, row by row. -/
def Form.row : Form → FormRow
  | .br => ⟨"BR", 0x0000, 0xFE00, false⟩
  | .brp => ⟨"BRp", 0x0200, 0xFE00, false⟩
  | .brz => ⟨"BRz", 0x0400, 0xFE00, false⟩
  | .brzp => ⟨"BRzp", 0x0600, 0xFE00, false⟩
  | .brn => ⟨"BRn", 0x0800, 0xFE00, false⟩
  | .brnp => ⟨"BRnp", 0x0A00, 0xFE00, false⟩
  | .brnz => ⟨"BRnz", 0x0C00, 0xFE00, false⟩
  | .brnzp => ⟨"BRnzp", 0x0E00, 0xFE00, false⟩
  | .addReg => ⟨"ADD", 0x1000, 0xF020, false⟩
  | .addImm => ⟨"ADD", 0x1020, 0xF020, false⟩
  | .ldb => ⟨"LDB", 0x2000, 0xF000, false⟩
  | .stb => ⟨"STB", 0x3000, 0xF000, false⟩
  | .jsrr => ⟨"JSRR", 0x4000, 0xF800, false⟩
  | .jsr => ⟨"JSR", 0x4800, 0xF800, false⟩
  | .andReg => ⟨"AND", 0x5000, 0xF020, false⟩
  | .andImm => ⟨"AND", 0x5020, 0xF020, false⟩
  | .ldr => ⟨"LDR", 0x6000, 0xF000, false⟩
  | .str => ⟨"STR", 0x7000, 0xF000, false⟩
  | .rti => ⟨"RTI", 0x8000, 0xF000, false⟩
  | .notReg => ⟨"NOT", 0x9000, 0xF000, false⟩
  | .ldi => ⟨"LDI", 0xA000, 0xF000, false⟩
  | .sti => ⟨"STI", 0xB000, 0xF000, false⟩
  | .jmp => ⟨"JMP", 0xC000, 0xF000, true⟩
  | .ret => ⟨"RET", 0xC1C0, 0xF1C0, false⟩
  | .lshf => ⟨"LSHF", 0xD000, 0xF010, false⟩
  | .rshfl => ⟨"RSHFL", 0xD010, 0xF030, false⟩
  | .rshfa => ⟨"RSHFA", 0xD030, 0xF030, false⟩
  | .lea => ⟨"LEA", 0xE000, 0xF000, false⟩
  | .trap => ⟨"TRAP", 0xF000, 0xF000, false⟩

/-- The 29 forms in the order of the table of 30_encoding.md R52. -/
def Form.all : List Form :=
  [.br, .brp, .brz, .brzp, .brn, .brnp, .brnz, .brnzp, .addReg, .addImm, .ldb, .stb, .jsrr, .jsr, .andReg,
    .andImm, .ldr, .str, .rti, .notReg, .ldi, .sti, .jmp, .ret, .lshf, .rshfl, .rshfa, .lea, .trap]

/-- A word is in a form when `(w AND mask) = match`; JMP also requires w[8:6] ≠ 7 (30_encoding.md R52). -/
def Form.has (f : Form) (w : Word) : Bool :=
  w &&& f.row.mask == f.row.matchBits && !(f.row.notBase7 && registerField w 6 == 7#3)

/-- The bits of a word that no field of the form uses (30_encoding.md R55). -/
def Form.ignoredBits : Form → Word
  | .addReg | .andReg => 0x0018
  | .jmp | .ret => 0x0E3F
  | .jsrr => 0x063F
  | .notReg => 0x003F
  | .rti => 0x0FFF
  | .lshf => 0x0020
  | .trap => 0x0F00
  | .br | .brp | .brz | .brzp | .brn | .brnp | .brnz | .brnzp => 0x0000
  | .addImm | .andImm | .jsr | .ldb | .ldi | .ldr | .stb | .sti | .str | .lea | .rshfl | .rshfa => 0x0000

/-! ## The encoder -/

/-- A word from its opcode and its two register fields, 0 where the form has none (30_encoding.md R40, R41). -/
def placeRegs (f : Family) (rA rB : RegIx) : Word := placeField 12 f.opcode ||| placeField 9 rA ||| placeField 6 rB

/-- A BR word from its condition bits and its offset (30_encoding.md R42, R44). -/
def placeBranch (n z p : Bool) (offset9 : BitVec 9) : Word :=
  placeField 12 Family.br.opcode ||| placeField 11 (BitVec.ofBool n) ||| placeField 10 (BitVec.ofBool z) |||
    placeField 9 (BitVec.ofBool p) ||| placeField 0 offset9

/-- The word of an instruction, from the rows of 30_encoding.md R52 and the field positions of R41 to R44. The ignored bits
(R55) are 0: DESIGN CHOICE (log entry 16; safe), every other value of them decodes alike. -/
def encode : Instr → Word
  | .br o => placeBranch false false false o
  | .brp o => placeBranch false false true o
  | .brz o => placeBranch false true false o
  | .brzp o => placeBranch false true true o
  | .brn o => placeBranch true false false o
  | .brnp o => placeBranch true false true o
  | .brnz o => placeBranch true true false o
  | .brnzp o => placeBranch true true true o
  | .addReg rd rs rt => placeRegs .add rd rs ||| placeField 5 0#1 ||| placeField 0 rt
  | .addImm rd rs imm => placeRegs .add rd rs ||| placeField 5 1#1 ||| placeField 0 imm
  | .ldb rd rb o => placeRegs .ldb rd rb ||| placeField 0 o
  | .stb rs rb o => placeRegs .stb rs rb ||| placeField 0 o
  | .jsrr rb => placeRegs .jsr 0 rb
  | .jsr o => placeField 12 Family.jsr.opcode ||| placeField 11 1#1 ||| placeField 0 o
  | .andReg rd rs rt => placeRegs .and rd rs ||| placeField 5 0#1 ||| placeField 0 rt
  | .andImm rd rs imm => placeRegs .and rd rs ||| placeField 5 1#1 ||| placeField 0 imm
  | .ldr rd rb o => placeRegs .ldr rd rb ||| placeField 0 o
  | .str rs rb o => placeRegs .str rs rb ||| placeField 0 o
  | .rti => placeRegs .rti 0 0
  | .notReg rd rs => placeRegs .not rd rs
  | .ldi rd rb o => placeRegs .ldi rd rb ||| placeField 0 o
  | .sti rs rb o => placeRegs .sti rs rb ||| placeField 0 o
  | .jmp rb => placeRegs .jmp 0 rb
  | .ret => placeRegs .jmp 0 7
  | .lshf rd rs imm => placeRegs .shf rd rs ||| placeField 4 0#1 ||| placeField 0 imm
  | .rshfl rd rs imm => placeRegs .shf rd rs ||| placeField 5 0#1 ||| placeField 4 1#1 ||| placeField 0 imm
  | .rshfa rd rs imm => placeRegs .shf rd rs ||| placeField 5 1#1 ||| placeField 4 1#1 ||| placeField 0 imm
  | .lea rd o => placeField 12 Family.lea.opcode ||| placeField 9 rd ||| placeField 0 o
  | .trap v => placeField 12 Family.trap.opcode ||| placeField 0 v

/-- The bytes of an instruction in the order the collaborator reads them. -/
def encodeBytes (firstByteIsHigh : Bool) (i : Instr) : List Byte := wordBytes firstByteIsHigh (encode i)

end Sys2Proof
end

