-- ==== Sys2Proof/Machine/State.lean ====
section
/-! DEFINITION. The state of the machine: the block's lanes with their ports and in-flight queues (10_state.md R18, R19, R24), the
collaborator's side of the interface (60_exceptions.md R109, R110), the build parameters (00_scope.md R5), and reset (R25). -/

namespace Sys2Proof.Machine

/-- The three error kinds (60_exceptions.md R106). -/
inductive ErrorKind where
  /-- Raised by the core's dispatcher (40_datapath.md R66); never for this hardware. -/
  | undefinedOpcode
  /-- Raised by the collaborator: one byte left at end of input. -/
  | truncatedInput
  /-- Raised by the collaborator: the medium failed, with its cause. -/
  | ioFailure (cause : IoCause)
  deriving DecidableEq, Repr

/-- What `Decode(w)` yields (00_scope.md R9): a line of bytes or an error. -/
inductive Result where
  | line (text : List Byte)
  | error (kind : ErrorKind)
  deriving DecidableEq, Repr

/-- An in-flight transaction: a result computed from its word alone, and the cycles until it is presented (10_state.md R24, R20). -/
structure InFlight where
  wait : Nat
  result : Result
  deriving DecidableEq, Repr

/-- One decode lane: its input port (10_state.md R18), its queue, oldest first (R24), and its output port (R19). The ports hold
the values of the current clock cycle. -/
structure Lane where
  inValid : Bool
  inWord : Word
  queue : List InFlight
  outValid : Bool
  outStatus : BitVec 2
  outLen : BitVec 5
  /-- The 19 bytes of `out_text`, byte 0 first. -/
  outText : List Byte
  deriving DecidableEq, Repr

/-- What the collaborator meets when it reads the medium next: a byte, the end of input, or a read failure (60_exceptions.md
R109); or nothing yet, for one lane's turn (R118: obtaining the next word is what may wait). Log entry 2. -/
inductive MediumItem where
  | byte (b : Byte)
  | endOfInput
  | failure (cause : IoCause)
  | pause
  deriving DecidableEq, Repr

/-- How one read attempt of the collaborator ends (60_exceptions.md R109). -/
inductive Event where
  | word (w : Word)
  | endOfInput
  | truncated
  | readFail (cause : IoCause)
  deriving DecidableEq, Repr

/-- The final status of a run (60_exceptions.md R110). -/
inductive FinalStatus where
  | clean
  | fatal (kind : ErrorKind)
  deriving DecidableEq, Repr

/-- Why a step answers a fault: the run is over with `Fatal(k)`, a final fault no later step clears (60_exceptions.md R111). -/
inductive Fault where
  /-- The run ended `Fatal(UndefinedOpcode)`; raised by every step after that (R107, R111). Safe. -/
  | fatalUndefinedOpcode
  /-- The run ended `Fatal(TruncatedInput)`; raised by every step after that (R109, R111). Safe. -/
  | fatalTruncatedInput
  /-- The run ended `Fatal(IOFailure(c))`; raised by every step after that (R109, R111). Safe. -/
  | fatalIoFailure (cause : IoCause)
  deriving DecidableEq, Repr

/-- Why a step is refused. No arm of `exec` and no step of this model raises one: every form has its meaning. -/
inductive Refusal where
  /-- Raised by an arm of `exec` for an instruction without a meaning yet. Safe. No arm raises it. -/
  | notModelled (mnemonic : String)
  deriving DecidableEq, Repr

/-- The machine. Nothing the block decodes is kept but the in-flight results (10_state.md R13, R24). -/
structure State where
  /-- The build parameters (00_scope.md R5). No step changes them. Log entry 6. -/
  build : Build
  /-- The reset line, asserted from outside; it covers the rest of the current cycle (70_reset_and_hazards.md R122, R124). Log entry 15. -/
  resetLine : Bool
  /-- What the collaborator has still to read, first item next (60_exceptions.md R109). Log entry 2. -/
  medium : List MediumItem
  /-- How the collaborator's reads ended, once they have: nothing is read after (60_exceptions.md R110). -/
  readsEnded : Option FinalStatus
  /-- The lanes of the block, lane 0 first. -/
  lanes : List Lane
  /-- The lane whose turn it is within the current clock cycle. The model's own. Log entry 1. -/
  slot : Nat
  /-- The lines emitted in this run, in input order: `out` of 60_exceptions.md R110. -/
  emitted : List (List Byte)
  /-- The final status of the run, once it has one (60_exceptions.md R110). -/
  finalStatus : Option FinalStatus
  /-- How many free values have been drawn. The model's own. Log entry 8. -/
  drawn : Nat
  deriving DecidableEq, Repr

/-- A lane after reset, with the `n`th draw for its unspecified ports (10_state.md R25): nothing in flight, `out_valid` 0, the other
outputs unspecified (log entry 8); no word presented (log entry 9). -/
def Lane.afterReset (n : Nat) : Lane where
  inValid := false
  inWord := Config.freeWord n
  queue := []
  outValid := false
  outStatus := Config.freeStatus n
  outLen := Config.freeLen n
  outText := (List.range lineMax).map (Config.freeByte n)

/-- A build right after reset, before a run: 10_state.md R25 for the block; the run has emitted nothing and has no status
(60_exceptions.md R110); nothing is on the medium (log entry 3). -/
def State.afterReset (b : Build) : State where
  build := b
  resetLine := false
  medium := []
  readsEnded := none
  lanes := (List.range b.laneCount).map Lane.afterReset
  slot := 0
  emitted := []
  finalStatus := none
  drawn := b.laneCount

/-- This hardware right after reset. -/
def State.reset : State := State.afterReset Build.hardware

end Sys2Proof.Machine
end

