-- ==== Sys2Proof/Machine/Text.lean ====
section
/-! DEFINITION. The text primitives of 00_scope.md R8. A line is a finite sequence of bytes. -/

namespace Sys2Proof.Machine

/-- An ASCII byte string (00_scope.md R8, 40_datapath.md R72; character codes of 93 GK4, log entry 18). -/
def ascii (s : String) : List Byte := s.toList.map fun c => BitVec.ofNat 8 c.toNat

/-- `LF`: the single byte 0x0A (00_scope.md R8). -/
def lf : Byte := 0x0A

/-- The digit character of `d`, for `d` below 10. -/
def decDigit (d : Nat) : Byte := BitVec.ofNat 8 (0x30 + d)

/-- The decimal digits of `n`, most significant first; `fuel` above `n` is enough. -/
def decDigits : Nat → Nat → List Byte
  | 0, _ => []
  | fuel + 1, n => if n < 10 then [decDigit n] else decDigits fuel (n / 10) ++ [decDigit (n % 10)]

/-- `dec(n)`: decimal digits with no leading zeros; `dec(0) = "0"` (00_scope.md R8). -/
def dec (n : Nat) : List Byte := decDigits (n + 1) n

/-- `sdec(v)`: `"-" ++ dec(-v)` when v < 0, `dec(v)` otherwise; no `+` sign (00_scope.md R8). -/
def sdec (v : Int) : List Byte := if v < 0 then ascii "-" ++ dec (-v).toNat else dec v.toNat

/-- One hexadecimal digit of a value below 16; A to F upper case when `upper` holds (00_scope.md R8, `HEX_UPPER`). -/
def hexDigit (upper : Bool) (d : Nat) : Byte :=
  if d < 10 then BitVec.ofNat 8 (0x30 + d)
  else if upper then BitVec.ofNat 8 (0x41 + (d - 10))
  else BitVec.ofNat 8 (0x61 + (d - 10))

/-- `hex2(v)`: two hexadecimal digits, most significant first, zero-padded (00_scope.md R8). -/
def hex2 (upper : Bool) (v : BitVec 8) : List Byte :=
  [hexDigit upper (v.toNat / 16), hexDigit upper (v.toNat % 16)]

/-- `join(sep, [a1..ak])`: `a1 ++ sep ++ ... ++ ak`; empty when k = 0 (00_scope.md R8). -/
def join (sep : List Byte) : List (List Byte) → List Byte
  | [] => []
  | [a] => a
  | a :: b :: rest => a ++ sep ++ join sep (b :: rest)

end Sys2Proof.Machine
end

