-- ==== Sys2Proof/Machine/Operands.lean ====
section
/-! DEFINITION. The sign/bias corrector (30_encoding.md R45, 40_datapath.md R65), the operand forms of the text formatter (R67 to R69) and the
two line shapes (R70). -/

namespace Sys2Proof.Machine

/-! ## The sign/bias corrector -/

/-- `bias_N(r) = r - 2^(N-1)`, in unbounded integers (00_scope.md R7). -/
def biasValue {n : Nat} (raw : BitVec n) : Int := (raw.toNat : Int) - 2 ^ (n - 1)

/-- `sext_N(v)`: the value read as two's complement (00_scope.md R7). -/
def sextValue {n : Nat} (raw : BitVec n) : Int :=
  if 2 ^ (n - 1) ≤ raw.toNat then (raw.toNat : Int) - 2 ^ n else raw.toNat

/-- The corrected value of a field under the build's convention: one implementation for all widths (30_encoding.md R45,
40_datapath.md R65). This hardware takes `BIAS`. -/
def correctedValue (b : Build) {n : Nat} (raw : BitVec n) : Int :=
  match b.fieldConvention with
  | .bias => biasValue raw
  | .twosComplement => sextValue raw

/-! ## Operand strings -/

/-- `Reg(i) = "R" ++ dec(i)` (40_datapath.md R67). -/
def regText (r : RegIx) : List Byte := ascii "R" ++ dec r.toNat

/-- `Imm(v) = "#" ++ sdec(v)`, from the corrected value (40_datapath.md R68). -/
def immText (v : Int) : List Byte := ascii "#" ++ sdec v

/-- `Hex(v) = "0x" ++ hex2(v)` (40_datapath.md R69). -/
def hexText (upper : Bool) (v : BitVec 8) : List Byte := ascii "0x" ++ hex2 upper v

/-! ## Line shapes -/

/-- The mnemonic and the operands, without the line's ending: the part `Semi` and `Bare` share (40_datapath.md R70). -/
def lineBody (mnemonic : List Byte) (ops : List (List Byte)) : List Byte :=
  mnemonic ++ (if ops.isEmpty then [] else ascii " " ++ join (ascii ", ") ops)

/-- `Semi(m, ops)`: with a `;` before the newline (40_datapath.md R70, R71). -/
def semi (mnemonic : List Byte) (ops : List (List Byte)) : List Byte :=
  lineBody mnemonic ops ++ ascii " ;" ++ [lf]

/-- `Bare(m, ops)`: without a `;`, for LSHF, RSHFL, RSHFA and RET (40_datapath.md R70, R71). -/
def bare (mnemonic : List Byte) (ops : List (List Byte)) : List Byte :=
  lineBody mnemonic ops ++ [lf]

end Sys2Proof.Machine
end

