-- ==== Sys2Proof/Machine/Ops.lean ====
section
/-! DEFINITION. The named operations of the machine: the dispatcher's check, starting and raising in a lane, a lane's
clock, the collaborator's reads and takes, the end of a cycle, and reset. The block has no memory and no registers, so no operation
over either (20_memory.md R28, 10_state.md R14). -/

namespace Sys2Proof.Machine

/-! ## Error codes and result encoding -/

/-- The numeric code of an error kind on `out_status` (60_exceptions.md R106). -/
def ErrorKind.code : ErrorKind → BitVec 2
  | .undefinedOpcode => 1
  | .truncatedInput => 2
  | .ioFailure _ => 3

/-- The fault every step answers once the run is over with this error (60_exceptions.md R111). -/
def ErrorKind.toFault : ErrorKind → Fault
  | .undefinedOpcode => .fatalUndefinedOpcode
  | .truncatedInput => .fatalTruncatedInput
  | .ioFailure c => .fatalIoFailure c

/-- `out_status` of a result: 0 for a line, the error's code otherwise (10_state.md R20). -/
def Result.status : Result → BitVec 2
  | .line _ => 0
  | .error k => k.code

/-- The text of a result: the line, or nothing for an error (10_state.md R20, 40_datapath.md R74). -/
def Result.text : Result → List Byte
  | .line t => t
  | .error _ => []

/-- The 19 bytes of `out_text` that carry `text`; the bytes at or beyond its length are free (10_state.md R19, 93 I6; log entry 8). -/
def padText (draw : Nat) (text : List Byte) : List Byte :=
  (List.range lineMax).map fun i => text.getD i (Config.freeByte draw i)

/-! ## One lane -/

/-- A word is presented on the lane's input port (10_state.md R18). -/
def Lane.driveWord (w : Word) (l : Lane) : Lane := { l with inValid := true, inWord := w }

/-- No word is presented: `in_valid` is 0 and `in_word` is not to be read (10_state.md R18; log entry 9). -/
def Lane.driveNothing (draw : Nat) (l : Lane) : Lane := { l with inValid := false, inWord := Config.freeWord draw }

/-- A transaction starts in the lane: its result joins the queue, to be presented `latency` cycles on (10_state.md R20, R24). -/
def Lane.accept (latency : Nat) (r : Result) (l : Lane) : Lane :=
  { l with queue := l.queue ++ [⟨latency, r⟩] }

/-- The lane presents a result on its output port (10_state.md R19, R20). -/
def Lane.present (draw : Nat) (r : Result) (l : Lane) : Lane :=
  { l with
    outValid := true
    outStatus := r.status
    outLen := BitVec.ofNat 5 r.text.length
    outText := padText draw r.text }

/-- The lane presents no output: `out_valid` is 0 and the other outputs are unspecified (10_state.md R19; log entry 8). -/
def Lane.presentNothing (draw : Nat) (l : Lane) : Lane :=
  { l with
    outValid := false
    outStatus := Config.freeStatus draw
    outLen := Config.freeLen draw
    outText := padText draw [] }

/-- One cycle less to wait. -/
def InFlight.age (e : InFlight) : InFlight := { e with wait := e.wait - 1 }

/-- The lane's clock edge: the oldest transaction is presented if its cycles are over, and the others wait one less (10_state.md R20). -/
def Lane.clock (draw : Nat) (l : Lane) : Lane :=
  match l.queue with
  | ⟨0, r⟩ :: rest => Lane.present draw r { l with queue := rest.map InFlight.age }
  | q => Lane.presentNothing draw { l with queue := q.map InFlight.age }

/-- The lane in a reset cycle: in-flight transactions are discarded without an output (70_reset_and_hazards.md R122). -/
def Lane.clear (draw : Nat) (l : Lane) : Lane := Lane.presentNothing draw { l with queue := [] }

/-- What a reader of the output port may read: nothing while `out_valid` is 0, and no byte at or beyond `out_len` (10_state.md
R19). The core drives no status but 0 and 1, so another than 0 is `UndefinedOpcode` (R19, R106; log entry 12). -/
def Lane.output (l : Lane) : Option Result :=
  if l.outValid then
    if l.outStatus = 0 then some (.line (l.outText.take l.outLen.toNat)) else some (.error .undefinedOpcode)
  else none

/-- Every lane by `f`, lane `k` with draw `draw + k`. -/
def clockLanes (f : Nat → Lane → Lane) : Nat → List Lane → List Lane
  | _, [] => []
  | draw, l :: ls => f draw l :: clockLanes f (draw + 1) ls

/-! ## Starting and raising -/

/-- The lane whose turn it is, by `f`. -/
def State.onLane (f : Lane → Lane) (s : State) : State := { s with lanes := s.lanes.modify s.slot f }

/-- A transaction with this result starts in the current lane (10_state.md R20). It changes that lane's queue and nothing
else: no flag, register, memory or other lane (20_memory.md R35). -/
def State.start (r : Result) (s : State) : State := s.onLane (Lane.accept s.build.latency r)

/-- TAKING AN ERROR, as 60_exceptions.md R107 and R113 describe it: the error is signalled by the failing word's own output
transaction and by nothing else. No control transfer, saved state, mode change or vector exists, and there is no
return from an error (R113), so no operation beside this one. -/
def State.raise (k : ErrorKind) (s : State) : State := s.start (.error k)

/-- The opcode dispatcher: reject an opcode in `UNDEFINED_OPCODES`, else give its family (40_datapath.md R66). -/
def dispatch (b : Build) (op : BitVec 4) : Except ErrorKind Family :=
  if op ∈ b.undefinedOpcodes then .error .undefinedOpcode else .ok (familyOf op)

/-- The transaction of an instruction of the family: its line if the dispatcher lets the opcode through, the error it raises
otherwise, and then no line (40_datapath.md R63, R66, R74). Either way the block goes on. -/
def transact (f : Family) (line : List Byte) (s : State) : Host.Outcome State Fault Refusal :=
  match dispatch s.build f.opcode with
  | .ok _ => .next (s.start (.line line))
  | .error k => .next (s.raise k)

/-! ## The collaborator's side of the interface -/

/-- One read attempt (60_exceptions.md R109; priority R112; word assembly 20_memory.md R32): the event it ends in and the
medium after it; none while the medium holds too little to end it (log entry 2). -/
def readAttempt (firstByteIsHigh : Bool) : List MediumItem → Option (Event × List MediumItem)
  | .byte b0 :: .byte b1 :: rest => some (.word (assemble firstByteIsHigh b0 b1), rest)
  | .byte _ :: .endOfInput :: rest => some (.truncated, rest)
  | .byte _ :: .failure c :: rest => some (.readFail c, rest)
  | .endOfInput :: rest => some (.endOfInput, rest)
  | .failure c :: rest => some (.readFail c, rest)
  | .byte _ :: .pause :: _ => none
  | .pause :: _ => none
  | [.byte _] => none
  | [] => none

/-- The medium after a turn in which the read attempt did not end: a pause in its way is over (log entry 2). -/
def passPause : List MediumItem → List MediumItem
  | .pause :: rest => rest
  | .byte b :: .pause :: rest => .byte b :: rest
  | m => m

/-- The run still reads: nothing is read after a terminating event or once the run is over (60_exceptions.md R110, R111). -/
def State.reading (s : State) : Bool := s.readsEnded.isNone && s.finalStatus.isNone

/-- The next event, while the run still reads (60_exceptions.md R109, R110). -/
def State.nextEvent (s : State) : Option (Event × List MediumItem) :=
  if s.reading then readAttempt s.build.firstByteIsHigh s.medium else none

/-- The collaborator presents a word in the current lane and the medium moves on. -/
def State.presentWord (w : Word) (rest : List MediumItem) (s : State) : State :=
  { s with medium := rest }.onLane (Lane.driveWord w)

/-- The collaborator presents nothing in the current lane. -/
def State.presentNothing (s : State) : State :=
  { s with drawn := s.drawn + 1 }.onLane (Lane.driveNothing s.drawn)

/-- No event comes in this turn: the collaborator presents nothing and goes on waiting (60_exceptions.md R118). -/
def State.waitTurn (s : State) : State :=
  { s with medium := if s.reading then passPause s.medium else s.medium }.presentNothing

/-- The collaborator's reads end with this status; nothing is presented. -/
def State.endReads (f : FinalStatus) (rest : List MediumItem) (s : State) : State :=
  { s with medium := rest, readsEnded := some f }.presentNothing

/-- The collaborator takes one lane's output of this cycle: a line joins `out`, an error ends the run, and nothing counts once the
run is over (60_exceptions.md R110, R111; 93 I12). -/
def State.takeOutput (s : State) (o : Option Result) : State :=
  match s.finalStatus, o with
  | none, some (.line t) => { s with emitted := s.emitted ++ [t] }
  | none, some (.error k) => { s with finalStatus := some (.fatal k) }
  | _, _ => s

/-- The collaborator takes every output presented this cycle, in lane order, which is the order in which it gave the words
(20_memory.md R37, 70_reset_and_hazards.md R126; log entry 11). -/
def State.takeOutputs (s : State) : State := (s.lanes.map Lane.output).foldl State.takeOutput s

/-- No transaction is in flight in any lane. -/
def State.drained (s : State) : Bool := s.lanes.all fun l => l.queue.isEmpty

/-- The run returns when its reads have ended and no earlier word is in flight: every one has produced its output (60_exceptions.md R110,
R113). Where a reset has discarded the last of them instead, which the spec gives no run meaning, the run returns too: DESIGN CHOICE
(log entry 20; unsafe). -/
def State.settle (s : State) : State :=
  if s.finalStatus.isNone && s.drained then { s with finalStatus := s.readsEnded } else s

/-! ## The clock -/

/-- The end of a clock cycle: every lane is clocked and the collaborator takes what the lanes present. -/
def State.tick (s : State) : State :=
  { s with
    lanes := clockLanes Lane.clock s.drawn s.lanes
    drawn := s.drawn + s.lanes.length
    slot := 0 }.takeOutputs.settle

/-- The end of a reset cycle: every lane is cleared, nothing is presented or taken, and the line is released
(70_reset_and_hazards.md R122; log entry 15). The spec leaves open what becomes of a run whose reads have ended when reset discards its last words in
flight (10_state.md R25, R122, R124); here the run ends in this cycle with the status its reads ended with, and the lines of those words are
missing from it: DESIGN CHOICE (log entry 20; unsafe). -/
def State.resetTick (s : State) : State :=
  { s with
    lanes := clockLanes Lane.clear s.drawn s.lanes
    drawn := s.drawn + s.lanes.length
    slot := 0
    resetLine := false }.settle

/-- The current lane's turn is over: the next lane's begins, or the cycle ends after the last lane (log entry 1). -/
def State.endSlot (s : State) : State :=
  if s.slot + 1 < s.build.laneCount then { s with slot := s.slot + 1 }
  else if s.resetLine then s.resetTick else s.tick

/-! ## Loading a word from outside -/

/-- The state in which the very next step presents the word: its two bytes come first on the medium in the build's order,
the reset line is released and the run still reads. Log entry 3. -/
def State.loadWord (w : Word) (s : State) : State :=
  { s with
    medium := (wordBytes s.build.firstByteIsHigh w).map MediumItem.byte ++ s.medium
    resetLine := false
    readsEnded := none
    finalStatus := none }

end Sys2Proof.Machine
end

