-- ==== Sys2Proof/Machine/AddAnd.lean ====
section
/-! DEFINITION. ADD and AND (41_add_and.md R81 to R84): the lines and the meanings. -/

namespace Sys2Proof.Machine

/-- ADD, immediate form (R81). -/
def lineAddImm (rdst rsrc1 : RegIx) (imm5v : Int) : List Byte :=
  semi (ascii "ADD") [regText rdst, regText rsrc1, immText imm5v]

/-- ADD, register form (R82). -/
def lineAddReg (rdst rsrc1 rsrc2 : RegIx) : List Byte :=
  semi (ascii "ADD") [regText rdst, regText rsrc1, regText rsrc2]

/-- AND, immediate form (R83). -/
def lineAndImm (rdst rsrc1 : RegIx) (imm5v : Int) : List Byte :=
  semi (ascii "AND") [regText rdst, regText rsrc1, immText imm5v]

/-- AND, register form (R84). -/
def lineAndReg (rdst rsrc1 rsrc2 : RegIx) : List Byte :=
  semi (ascii "AND") [regText rdst, regText rsrc1, regText rsrc2]

/-- R81. -/
def execAddImm (rdst rsrc1 : RegIx) (imm5 : BitVec 5) (s : State) : Host.Outcome State Fault Refusal :=
  transact .add (lineAddImm rdst rsrc1 (correctedValue s.build imm5)) s

/-- R82. -/
def execAddReg (rdst rsrc1 rsrc2 : RegIx) (s : State) : Host.Outcome State Fault Refusal :=
  transact .add (lineAddReg rdst rsrc1 rsrc2) s

/-- R83. -/
def execAndImm (rdst rsrc1 : RegIx) (imm5 : BitVec 5) (s : State) : Host.Outcome State Fault Refusal :=
  transact .and (lineAndImm rdst rsrc1 (correctedValue s.build imm5)) s

/-- R84. -/
def execAndReg (rdst rsrc1 rsrc2 : RegIx) (s : State) : Host.Outcome State Fault Refusal :=
  transact .and (lineAndReg rdst rsrc1 rsrc2) s

end Sys2Proof.Machine
end

