-- ==== Sys2Proof/Machine/Flags.lean ====
section
/-! DEFINITION. The block has no flags (10_state.md R16): nothing computes or stores one. The bits n, z and p of a BR word are
instruction fields, printed as letters of the mnemonic; that printing is all of "flags" there is. -/

namespace Sys2Proof.Machine

/-- The condition letters of BR's mnemonic, always in the order n, z, p (42_control.md R85). -/
def conditionLetters (n z p : Bool) : List Byte :=
  (if n then ascii "n" else []) ++ (if z then ascii "z" else []) ++ (if p then ascii "p" else [])

end Sys2Proof.Machine
end

