-- ==== Sys2Proof/Machine/Control.lean ====
section
/-! DEFINITION. BR, JMP, RET, JSR and JSRR (42_control.md R85 to R89): the lines and the meanings. No target is computed (30_encoding.md R47). -/

namespace Sys2Proof.Machine

/-- BR, all eight condition forms (R85): plain `BR` when n = z = p = 0. -/
def lineBr (n z p : Bool) (off9v : Int) : List Byte :=
  semi (ascii "BR" ++ conditionLetters n z p) [immText off9v]

/-- JMP (R86). -/
def lineJmp (rbase : RegIx) : List Byte := semi (ascii "JMP") [regText rbase]

/-- RET (R87): no operand and no `;` (40_datapath.md R71; 90 C2). -/
def lineRet : List Byte := bare (ascii "RET") []

/-- JSR (R88). -/
def lineJsr (off11v : Int) : List Byte := semi (ascii "JSR") [immText off11v]

/-- JSRR (R89): base 7 is printed as any other. -/
def lineJsrr (rbase : RegIx) : List Byte := semi (ascii "JSRR") [regText rbase]

/-- R85, n z p = 0 0 0. -/
def execBr (offset9 : BitVec 9) (s : State) : Host.Outcome State Fault Refusal :=
  transact .br (lineBr false false false (correctedValue s.build offset9)) s

/-- R85, n z p = 0 0 1. -/
def execBrp (offset9 : BitVec 9) (s : State) : Host.Outcome State Fault Refusal :=
  transact .br (lineBr false false true (correctedValue s.build offset9)) s

/-- R85, n z p = 0 1 0. -/
def execBrz (offset9 : BitVec 9) (s : State) : Host.Outcome State Fault Refusal :=
  transact .br (lineBr false true false (correctedValue s.build offset9)) s

/-- R85, n z p = 0 1 1. -/
def execBrzp (offset9 : BitVec 9) (s : State) : Host.Outcome State Fault Refusal :=
  transact .br (lineBr false true true (correctedValue s.build offset9)) s

/-- R85, n z p = 1 0 0. -/
def execBrn (offset9 : BitVec 9) (s : State) : Host.Outcome State Fault Refusal :=
  transact .br (lineBr true false false (correctedValue s.build offset9)) s

/-- R85, n z p = 1 0 1. -/
def execBrnp (offset9 : BitVec 9) (s : State) : Host.Outcome State Fault Refusal :=
  transact .br (lineBr true false true (correctedValue s.build offset9)) s

/-- R85, n z p = 1 1 0. -/
def execBrnz (offset9 : BitVec 9) (s : State) : Host.Outcome State Fault Refusal :=
  transact .br (lineBr true true false (correctedValue s.build offset9)) s

/-- R85, n z p = 1 1 1. -/
def execBrnzp (offset9 : BitVec 9) (s : State) : Host.Outcome State Fault Refusal :=
  transact .br (lineBr true true true (correctedValue s.build offset9)) s

/-- R86. -/
def execJmp (rbase : RegIx) (s : State) : Host.Outcome State Fault Refusal := transact .jmp (lineJmp rbase) s

/-- R87. -/
def execRet (s : State) : Host.Outcome State Fault Refusal := transact .jmp lineRet s

/-- R88. -/
def execJsr (offset11 : BitVec 11) (s : State) : Host.Outcome State Fault Refusal :=
  transact .jsr (lineJsr (correctedValue s.build offset11)) s

/-- R89. -/
def execJsrr (rbase : RegIx) (s : State) : Host.Outcome State Fault Refusal := transact .jsr (lineJsrr rbase) s

end Sys2Proof.Machine
end

