-- ==== Sys2Proof/Machine/LoadStoreLea.lean ====
section
/-! DEFINITION. LDB, LDI, LDR, STB, STI, STR and LEA (43_load_store_lea.md R91 to R97): the lines and the meanings. No address is formed and no
memory is accessed. -/

namespace Sys2Proof.Machine

/-- The uniform layout of the six load and store families: `OP Rdr_or_sr, Rbase, #offset6` (43_load_store_lea.md). -/
def lineLoadStore (mnemonic : List Byte) (rA rB : RegIx) (off6v : Int) : List Byte :=
  semi mnemonic [regText rA, regText rB, immText off6v]

/-- LDB (R91). -/
def lineLdb (rdr rbase : RegIx) (off6v : Int) : List Byte := lineLoadStore (ascii "LDB") rdr rbase off6v

/-- LDI (R92). -/
def lineLdi (rdr rbase : RegIx) (off6v : Int) : List Byte := lineLoadStore (ascii "LDI") rdr rbase off6v

/-- LDR (R93). -/
def lineLdr (rdr rbase : RegIx) (off6v : Int) : List Byte := lineLoadStore (ascii "LDR") rdr rbase off6v

/-- STB (R94). -/
def lineStb (rsr rbase : RegIx) (off6v : Int) : List Byte := lineLoadStore (ascii "STB") rsr rbase off6v

/-- STI (R95). -/
def lineSti (rsr rbase : RegIx) (off6v : Int) : List Byte := lineLoadStore (ascii "STI") rsr rbase off6v

/-- STR (R96). -/
def lineStr (rsr rbase : RegIx) (off6v : Int) : List Byte := lineLoadStore (ascii "STR") rsr rbase off6v

/-- LEA (R97): bits 8:6 belong to the offset. -/
def lineLea (rdst : RegIx) (off9v : Int) : List Byte := semi (ascii "LEA") [regText rdst, immText off9v]

/-- R91. -/
def execLdb (rdr rbase : RegIx) (offset6 : BitVec 6) (s : State) : Host.Outcome State Fault Refusal :=
  transact .ldb (lineLdb rdr rbase (correctedValue s.build offset6)) s

/-- R92. -/
def execLdi (rdr rbase : RegIx) (offset6 : BitVec 6) (s : State) : Host.Outcome State Fault Refusal :=
  transact .ldi (lineLdi rdr rbase (correctedValue s.build offset6)) s

/-- R93. -/
def execLdr (rdr rbase : RegIx) (offset6 : BitVec 6) (s : State) : Host.Outcome State Fault Refusal :=
  transact .ldr (lineLdr rdr rbase (correctedValue s.build offset6)) s

/-- R94. -/
def execStb (rsr rbase : RegIx) (offset6 : BitVec 6) (s : State) : Host.Outcome State Fault Refusal :=
  transact .stb (lineStb rsr rbase (correctedValue s.build offset6)) s

/-- R95. -/
def execSti (rsr rbase : RegIx) (offset6 : BitVec 6) (s : State) : Host.Outcome State Fault Refusal :=
  transact .sti (lineSti rsr rbase (correctedValue s.build offset6)) s

/-- R96. -/
def execStr (rsr rbase : RegIx) (offset6 : BitVec 6) (s : State) : Host.Outcome State Fault Refusal :=
  transact .str (lineStr rsr rbase (correctedValue s.build offset6)) s

/-- R97. -/
def execLea (rdst : RegIx) (offset9 : BitVec 9) (s : State) : Host.Outcome State Fault Refusal :=
  transact .lea (lineLea rdst (correctedValue s.build offset9)) s

end Sys2Proof.Machine
end

