-- ==== Sys2Proof/Machine/NotRti.lean ====
section
/-! DEFINITION. NOT and RTI (44_not_rti.md R98, R99): the lines and the meanings. RTI is printed and returns from nothing (60_exceptions.md R120). -/

namespace Sys2Proof.Machine

/-- NOT (R98): no immediate form exists. -/
def lineNot (rdst rsrc : RegIx) : List Byte := semi (ascii "NOT") [regText rdst, regText rsrc]

/-- RTI (R99). -/
def lineRti : List Byte := semi (ascii "RTI") []

/-- R98. -/
def execNot (rdst rsrc : RegIx) (s : State) : Host.Outcome State Fault Refusal := transact .not (lineNot rdst rsrc) s

/-- R99. -/
def execRti (s : State) : Host.Outcome State Fault Refusal := transact .rti lineRti s

end Sys2Proof.Machine
end

