-- ==== Sys2Proof/Machine/Shf.lean ====
section
/-! DEFINITION. LSHF, RSHFL and RSHFA (45_shf.md R100 to R102): the lines, without a `;` (40_datapath.md R71), and the meanings. Nothing is shifted. -/

namespace Sys2Proof.Machine

/-- LSHF (R100). -/
def lineLshf (rdst rsrc : RegIx) (imm4v : Int) : List Byte :=
  bare (ascii "LSHF") [regText rdst, regText rsrc, immText imm4v]

/-- RSHFL (R101). -/
def lineRshfl (rdst rsrc : RegIx) (imm4v : Int) : List Byte :=
  bare (ascii "RSHFL") [regText rdst, regText rsrc, immText imm4v]

/-- RSHFA (R102). -/
def lineRshfa (rdst rsrc : RegIx) (imm4v : Int) : List Byte :=
  bare (ascii "RSHFA") [regText rdst, regText rsrc, immText imm4v]

/-- R100. -/
def execLshf (rdst rsrc : RegIx) (imm4 : BitVec 4) (s : State) : Host.Outcome State Fault Refusal :=
  transact .shf (lineLshf rdst rsrc (correctedValue s.build imm4)) s

/-- R101. -/
def execRshfl (rdst rsrc : RegIx) (imm4 : BitVec 4) (s : State) : Host.Outcome State Fault Refusal :=
  transact .shf (lineRshfl rdst rsrc (correctedValue s.build imm4)) s

/-- R102. -/
def execRshfa (rdst rsrc : RegIx) (imm4 : BitVec 4) (s : State) : Host.Outcome State Fault Refusal :=
  transact .shf (lineRshfa rdst rsrc (correctedValue s.build imm4)) s

end Sys2Proof.Machine
end

