-- ==== Sys2Proof/Machine/Trap.lean ====
section
/-! DEFINITION. TRAP (46_trap.md R103 to R105): the line and the meaning. No service routine is called (60_exceptions.md R120). -/

namespace Sys2Proof.Machine

/-- The closed TRAP name table: exactly these five vectors have a name (R104). -/
def trapName (vec8 : BitVec 8) : Option (List Byte) :=
  if vec8 = 0x20 then some (ascii "GETC")
  else if vec8 = 0x21 then some (ascii "OUT")
  else if vec8 = 0x22 then some (ascii "PUTS")
  else if vec8 = 0x23 then some (ascii "IN")
  else if vec8 = 0x25 then some (ascii "HALT")
  else none

/-- TRAP's line (R103): a named vector's name after the one `;`. -/
def lineTrap (upper : Bool) (vec8 : BitVec 8) : List Byte :=
  match trapName vec8 with
  | some name => ascii "TRAP " ++ hexText upper vec8 ++ ascii " ; " ++ name ++ [lf]
  | none => ascii "TRAP " ++ hexText upper vec8 ++ ascii " ;" ++ [lf]

/-- R103. -/
def execTrap (vec8 : BitVec 8) (s : State) : Host.Outcome State Fault Refusal :=
  transact .trap (lineTrap s.build.hexUpper vec8) s

end Sys2Proof.Machine
end

