-- ==== Sys2Proof/Machine/Dispatch.lean ====
section
/-! DEFINITION. The meaning of every instruction form, one arm a constructor. -/

namespace Sys2Proof.Machine

def exec (i : Instr) (s : State) : Host.Outcome State Fault Refusal :=
  match i with
  | .br o => Sys2Proof.Machine.execBr o s
  | .brp o => Sys2Proof.Machine.execBrp o s
  | .brz o => Sys2Proof.Machine.execBrz o s
  | .brzp o => Sys2Proof.Machine.execBrzp o s
  | .brn o => Sys2Proof.Machine.execBrn o s
  | .brnp o => Sys2Proof.Machine.execBrnp o s
  | .brnz o => Sys2Proof.Machine.execBrnz o s
  | .brnzp o => Sys2Proof.Machine.execBrnzp o s
  | .addReg rd rs rt => Sys2Proof.Machine.execAddReg rd rs rt s
  | .addImm rd rs imm => Sys2Proof.Machine.execAddImm rd rs imm s
  | .ldb rd rb o => Sys2Proof.Machine.execLdb rd rb o s
  | .stb rs rb o => Sys2Proof.Machine.execStb rs rb o s
  | .jsrr rb => Sys2Proof.Machine.execJsrr rb s
  | .jsr o => Sys2Proof.Machine.execJsr o s
  | .andReg rd rs rt => Sys2Proof.Machine.execAndReg rd rs rt s
  | .andImm rd rs imm => Sys2Proof.Machine.execAndImm rd rs imm s
  | .ldr rd rb o => Sys2Proof.Machine.execLdr rd rb o s
  | .str rs rb o => Sys2Proof.Machine.execStr rs rb o s
  | .rti => Sys2Proof.Machine.execRti s
  | .notReg rd rs => Sys2Proof.Machine.execNot rd rs s
  | .ldi rd rb o => Sys2Proof.Machine.execLdi rd rb o s
  | .sti rs rb o => Sys2Proof.Machine.execSti rs rb o s
  | .jmp rb => Sys2Proof.Machine.execJmp rb s
  | .ret => Sys2Proof.Machine.execRet s
  | .lshf rd rs imm => Sys2Proof.Machine.execLshf rd rs imm s
  | .rshfl rd rs imm => Sys2Proof.Machine.execRshfl rd rs imm s
  | .rshfa rd rs imm => Sys2Proof.Machine.execRshfa rd rs imm s
  | .lea rd o => Sys2Proof.Machine.execLea rd o s
  | .trap v => Sys2Proof.Machine.execTrap v s

end Sys2Proof.Machine
end

