-- ==== Sys2Proof/Machine/Cycle.lean ====
section
/-! DEFINITION. One lane's turn of one clock cycle: the collaborator reads and presents, the block decodes a presented word, the
turn ends. One word is one step (log entry 1). -/

namespace Sys2Proof.Machine

/-- The lane's turn ends after an instruction that answered a next state. -/
def endSlotAfter : Host.Outcome State Fault Refusal → Host.Outcome State Fault Refusal
  | .next t => .next t.endSlot
  | .fault r => .fault r
  | .refused r => .refused r

/-- A word is presented in the current lane. The block decodes it in this cycle (10_state.md R20, 70_reset_and_hazards.md R129), unless reset is
asserted: a word presented in a reset cycle is not decoded (R124). -/
def wordTurn (w : Word) (rest : List MediumItem) (s : State) : Host.Outcome State Fault Refusal :=
  if s.resetLine then .next (s.presentWord w rest).endSlot
  else endSlotAfter (exec (decode w) (s.presentWord w rest))

/-- One lane's turn while the run is not over with an error (60_exceptions.md R109, R110). With no event at hand the block idles: the
collaborator waits for its next word (R118), or the run has ended `Clean`. -/
def laneTurn (s : State) : Host.Outcome State Fault Refusal :=
  match s.nextEvent with
  | some (.word w, rest) => wordTurn w rest s
  | some (.endOfInput, rest) => .next (s.endReads .clean rest).endSlot
  | some (.truncated, rest) => .next (s.endReads (.fatal .truncatedInput) rest).endSlot
  | some (.readFail c, rest) => .next (s.endReads (.fatal (.ioFailure c)) rest).endSlot
  | none => .next s.waitTurn.endSlot

/-- `Fatal(k)` is a final fault that no later step clears (60_exceptions.md R111; log entry 13); otherwise a lane takes its turn. -/
def slotStep (s : State) : Host.Outcome State Fault Refusal :=
  match s.finalStatus with
  | some (.fatal k) => .fault k.toFault
  | some .clean => laneTurn s
  | none => laneTurn s

end Sys2Proof.Machine
end

