-- ==== Sys2Proof/Machine/Step.lean ====
section
/-! DEFINITION. The step of the machine, and placing a word where the next step takes it. -/

namespace Sys2Proof.Machine

/-- One lane's turn of one clock cycle. -/
def step (s : State) : Host.Outcome State Fault Refusal := slotStep s

/-- `s` with the word of the low `nbits` bits of `w` where the very next step reads it: at the front of the medium. -/
def State.withFetchWord (s : State) (nbits w : Nat) : State := s.loadWord (BitVec.ofNat 16 (w % 2 ^ nbits))

end Sys2Proof.Machine
end

