-- ==== Sys2Proof/Machine/Datapath.lean ====
section
/-! DEFINITION. `Decode(w)` as the four combinational stages of 40_datapath.md R63, on the Decoded Fields and not on `Instr`; and the run over an
event sequence (60_exceptions.md R110). The step does not call these: they are the spec's own account of what the steps come to. -/

namespace Sys2Proof.Machine

/-- The corrected values: all five at once, for every word (40_datapath.md R65). -/
structure Corrected where
  imm4v : Int
  imm5v : Int
  off6v : Int
  off9v : Int
  off11v : Int
  deriving DecidableEq, Repr

/-- Correct (40_datapath.md R63, R65). -/
def correct (b : Build) (F : Fields) : Corrected where
  imm4v := correctedValue b F.raw4
  imm5v := correctedValue b F.raw5
  off6v := correctedValue b F.raw6
  off9v := correctedValue b F.raw9
  off11v := correctedValue b F.raw11

/-- The sixteen family decoders (40_datapath.md R63; forms by 30_encoding.md R51; lines by R81 to R105). -/
def familyDecoder (b : Build) (fam : Family) (F : Fields) (V : Corrected) : List Byte :=
  match fam with
  | .br => lineBr F.b11 F.z F.p V.off9v
  | .add => if F.b5 then lineAddImm F.rA F.rB V.imm5v else lineAddReg F.rA F.rB F.rC
  | .ldb => lineLdb F.rA F.rB V.off6v
  | .stb => lineStb F.rA F.rB V.off6v
  | .jsr => if F.b11 then lineJsr V.off11v else lineJsrr F.rB
  | .and => if F.b5 then lineAndImm F.rA F.rB V.imm5v else lineAndReg F.rA F.rB F.rC
  | .ldr => lineLdr F.rA F.rB V.off6v
  | .str => lineStr F.rA F.rB V.off6v
  | .rti => lineRti
  | .not => lineNot F.rA F.rB
  | .ldi => lineLdi F.rA F.rB V.off6v
  | .sti => lineSti F.rA F.rB V.off6v
  | .jmp => if F.rB = 7#3 then lineRet else lineJmp F.rB
  | .shf =>
    if F.b4 then (if F.b5 then lineRshfa F.rA F.rB V.imm4v else lineRshfl F.rA F.rB V.imm4v)
    else lineLshf F.rA F.rB V.imm4v
  | .lea => lineLea F.rA V.off9v
  | .trap => lineTrap b.hexUpper F.vec8

/-- `Decode(w)` (40_datapath.md R63, 00_scope.md R9): a function of the word and the build alone (10_state.md R22). -/
def decodeToResult (b : Build) (w : Word) : Result :=
  let F := extract w
  let V := correct b F
  match dispatch b F.opcode with
  | .ok fam => .line (familyDecoder b fam F V)
  | .error k => .error k

/-- `Run(events)` (60_exceptions.md R110), going on from the lines already out: the lines and the final status; no status where the
events end without a terminating one, since a run then still waits for its next event (R131). -/
def runFrom (b : Build) (out : List (List Byte)) : List Event → List (List Byte) × Option FinalStatus
  | [] => (out, none)
  | .word w :: rest =>
    match decodeToResult b w with
    | .line t => runFrom b (out ++ [t]) rest
    | .error k => (out, some (.fatal k))
  | .endOfInput :: _ => (out, some .clean)
  | .truncated :: _ => (out, some (.fatal .truncatedInput))
  | .readFail c :: _ => (out, some (.fatal (.ioFailure c)))

/-- `Run(events)` from its start: `out` is empty (60_exceptions.md R110). -/
def run (b : Build) (events : List Event) : List (List Byte) × Option FinalStatus := runFrom b [] events

/-- The events of the read attempts over a medium without pauses, one after another (60_exceptions.md R109; 20_memory.md R32). -/
def eventsOfItems (firstByteIsHigh : Bool) : List MediumItem → List Event
  | .byte b0 :: .byte b1 :: rest => .word (assemble firstByteIsHigh b0 b1) :: eventsOfItems firstByteIsHigh rest
  | .byte _ :: .endOfInput :: rest => .truncated :: eventsOfItems firstByteIsHigh rest
  | .byte _ :: .failure c :: rest => .readFail c :: eventsOfItems firstByteIsHigh rest
  | .endOfInput :: rest => .endOfInput :: eventsOfItems firstByteIsHigh rest
  | .failure c :: rest => .readFail c :: eventsOfItems firstByteIsHigh rest
  | .byte _ :: .pause :: rest => eventsOfItems firstByteIsHigh rest
  | .pause :: rest => eventsOfItems firstByteIsHigh rest
  | [.byte _] => []
  | [] => []

/-- The events a medium holds: pauses delay them and change nothing else. -/
def eventsOf (firstByteIsHigh : Bool) (m : List MediumItem) : List Event :=
  eventsOfItems firstByteIsHigh (m.filter (· != .pause))

end Sys2Proof.Machine
end

