-- ==== Sys2Proof/Safety.lean ====
section
/-! DEFINITION. The terms claims are made in: what a good line and a good port are, the invariant of the machine, what a run comes to, a
lane as a delay line, and which states a reader of the ports cannot tell apart. -/

namespace Sys2Proof.Machine

/-! ## Lines and ports -/

/-- A whole line: 4 to 19 bytes (40_datapath.md R73), the last one LF, and no other control character and no byte above 0x7F (R72). -/
abbrev LineOk (t : List Byte) : Prop :=
  4 ≤ t.length ∧ t.length ≤ lineMax ∧ t.getLast? = some lf ∧ ∀ c ∈ t.dropLast, 0x20 ≤ c.toNat ∧ c.toNat ≤ 0x7E

/-- The characters the formatter writes before the LF when `HEX_UPPER` holds (40_datapath.md R75). -/
def lineAlphabet : List Byte := ascii "ABCDEFGHIJKLMNOPQRSTUVWXYZnzpx0123456789#-, ;"

/-- The number a string of decimal digits stands for. -/
def decimalValue (t : List Byte) : Nat := t.foldl (fun a c => 10 * a + (c.toNat - 0x30)) 0

/-- The number one hexadecimal digit stands for. -/
def hexDigitValue (c : Byte) : Nat :=
  if c.toNat < 0x40 then c.toNat - 0x30 else if c.toNat < 0x60 then c.toNat - 0x37 else c.toNat - 0x57

/-- A result the core can have: a whole line, or the one error it raises (60_exceptions.md R106, R108). -/
abbrev ResultOk : Result → Prop
  | .line t => LineOk t
  | .error k => k = .undefinedOpcode

/-- The output port as 10_state.md R19 describes it: 19 bytes of text, and while an output is presented a status of 0 or 1, a length
up to 19 that is 0 exactly when the status is not 0, and a whole line when it is 0. -/
abbrev Lane.PortOk (l : Lane) : Prop :=
  l.outText.length = lineMax ∧
  (l.outValid = true →
    l.outStatus.toNat ≤ 1 ∧ l.outLen.toNat ≤ lineMax ∧ (l.outLen = 0 ↔ l.outStatus ≠ 0) ∧
    (l.outStatus = 0 → LineOk (l.outText.take l.outLen.toNat)))

/-- The queue as 10_state.md R24 describes it: in input order, one transaction to a cycle, each due in fewer than `bound` cycles. -/
abbrev Lane.QueueOk (bound : Nat) (l : Lane) : Prop :=
  l.queue.Pairwise (fun a b => a.wait < b.wait) ∧ ∀ e ∈ l.queue, e.wait < bound ∧ ResultOk e.result

/-! ## The invariant -/

/-- The invariant of the machine. Lanes before `slot` have had their turn of this cycle, so their newest transaction may be due in
`LATENCY` cycles; the others hold at most `LATENCY` transactions (10_state.md R24). -/
structure State.Inv (s : State) : Prop where
  lanes_count : s.lanes.length = s.build.laneCount
  slot_lt : s.slot < s.build.laneCount
  ports : ∀ l ∈ s.lanes, l.PortOk
  queues : ∀ (k : Nat) (l : Lane), s.lanes[k]? = some l →
    l.QueueOk (if k < s.slot then s.build.latency + 1 else s.build.latency)
  emitted : ∀ t ∈ s.emitted, LineOk t
  reads : s.readsEnded ≠ some (.fatal .undefinedOpcode)
  clean : s.finalStatus = some .clean → s.readsEnded = some .clean ∧ s.drained = true
  fatal : ∀ k, s.finalStatus = some (.fatal k) → k = .undefinedOpcode ∨ s.readsEnded = some (.fatal k)

/-! ## What a run comes to -/

/-- The final status a terminating event gives a run; a word gives none (60_exceptions.md R110). -/
def Event.terminal : Event → Option FinalStatus
  | .word _ => none
  | .endOfInput => some .clean
  | .truncated => some (.fatal .truncatedInput)
  | .readFail c => some (.fatal (.ioFailure c))

/-- The in-flight results in stream order: by the cycle they are due in, and by lane within a cycle (20_memory.md R37). -/
def State.pending (s : State) : List Result :=
  (List.range (s.build.latency + 1)).flatMap fun w =>
    s.lanes.flatMap fun l => (l.queue.filter fun e => e.wait == w).map InFlight.result

/-- The run goes on through results still to come: lines join `out`, the first error ends it (60_exceptions.md R110). -/
def takeResults (out : List (List Byte)) : List Result → List (List Byte) × Option FinalStatus
  | [] => (out, none)
  | .line t :: rest => takeResults (out ++ [t]) rest
  | .error k :: _ => (out, some (.fatal k))

/-- What the run of a state comes to by 60_exceptions.md R110: the lines already out, then the results in flight, then the events still
on the medium. -/
def State.outcome (s : State) : List (List Byte) × Option FinalStatus :=
  match s.finalStatus with
  | some f => (s.emitted, some f)
  | none =>
    match takeResults s.emitted s.pending with
    | (out, some f) => (out, some f)
    | (out, none) =>
      match s.readsEnded with
      | some f => (out, some f)
      | none => runFrom s.build out (eventsOf s.build.firstByteIsHigh s.medium)

/-- A build right after reset, with a program's bytes loaded on the medium (log entry 3). -/
def State.loaded (b : Build) (medium : List MediumItem) : State := { State.afterReset b with medium := medium }

/-! ## A lane as a delay line -/

/-- What a lane presents, cycle by cycle, when `ins` is what it accepts in each cycle (10_state.md R20). -/
def laneOutputs (latency : Nat) : Nat → Lane → List (Option Result) → List (Option Result)
  | _, _, [] => []
  | draw, l, i :: rest =>
    let l' := Lane.clock draw (match i with | some r => l.accept latency r | none => l)
    l'.output :: laneOutputs latency (draw + 1) l' rest

/-! ## Renaming causes

What the machine's data are under a renaming of the causes of read failures, so that a claim can say that the machine carries causes
and never reads one (93 I5). -/

def ErrorKind.mapCause (f : IoCause → IoCause) : ErrorKind → ErrorKind
  | .undefinedOpcode => .undefinedOpcode
  | .truncatedInput => .truncatedInput
  | .ioFailure c => .ioFailure (f c)

def Result.mapCause (f : IoCause → IoCause) : Result → Result
  | .line t => .line t
  | .error k => .error (k.mapCause f)

def Lane.mapCause (f : IoCause → IoCause) (l : Lane) : Lane :=
  { l with queue := l.queue.map fun e => ⟨e.wait, e.result.mapCause f⟩ }

def MediumItem.mapCause (f : IoCause → IoCause) : MediumItem → MediumItem
  | .byte b => .byte b
  | .endOfInput => .endOfInput
  | .failure c => .failure (f c)
  | .pause => .pause

def FinalStatus.mapCause (f : IoCause → IoCause) : FinalStatus → FinalStatus
  | .clean => .clean
  | .fatal k => .fatal (k.mapCause f)

def Fault.mapCause (f : IoCause → IoCause) : Fault → Fault
  | .fatalUndefinedOpcode => .fatalUndefinedOpcode
  | .fatalTruncatedInput => .fatalTruncatedInput
  | .fatalIoFailure c => .fatalIoFailure (f c)

/-- A state under a renaming of causes: every cause in it is renamed, and nothing else is touched. -/
def State.mapCause (f : IoCause → IoCause) (s : State) : State :=
  { s with
    medium := s.medium.map (MediumItem.mapCause f)
    readsEnded := s.readsEnded.map (FinalStatus.mapCause f)
    lanes := s.lanes.map (Lane.mapCause f)
    finalStatus := s.finalStatus.map (FinalStatus.mapCause f) }

/-! ## States a reader cannot tell apart -/

/-- Two lanes that agree on all a reader may read (10_state.md R18, R19). -/
structure Lane.SameReadable (a b : Lane) : Prop where
  inValid : a.inValid = b.inValid
  inWord : a.inValid = true → a.inWord = b.inWord
  queue : a.queue = b.queue
  outValid : a.outValid = b.outValid
  output : a.output = b.output

/-- Two states that differ only in unspecified values and in how many were drawn. -/
structure State.SameReadable (a b : State) : Prop where
  build : a.build = b.build
  resetLine : a.resetLine = b.resetLine
  medium : a.medium = b.medium
  readsEnded : a.readsEnded = b.readsEnded
  lanes : List.Forall₂ Lane.SameReadable a.lanes b.lanes
  slot : a.slot = b.slot
  emitted : a.emitted = b.emitted
  finalStatus : a.finalStatus = b.finalStatus

end Sys2Proof.Machine
end

