-- ==== Sys2Proof/Certificates/Slice0/Obligations.lean ====
section
/-! DEFINITION. The statements for the provers. They state and never prove. Slices of a word are written `w.extractLsb hi lo`, for the spec's
`w[hi:lo]`. -/

open Sys2Proof Sys2Proof.Machine

/-! ## Encoding -/

/-- Decoding an encoded well-formed instruction gives it back, with every operand at every value its field admits. -/
def Obligations.DecodeOfEncodeIsTheInstruction : Prop :=
  ∀ i : Instr, i.wellFormed = true → decode (encode i) = i

/-- Encoding a decoded word gives the word with the bits its form ignores cleared, and the decoded instruction is well formed: no used bit is
lost. The cleared bits are the encoder's choice (log entry 16). -/
def Obligations.EncodeOfDecodeClearsOnlyIgnoredBits : Prop :=
  ∀ w : Word, (decode w).wellFormed = true ∧ encode (decode w) = w &&& ~~~(decode w).form.ignoredBits

/-- The 29 forms partition the words: a word meets a form's row exactly when that is the form it decodes to (30_encoding.md R52,
an inference the spec marks as derived). -/
def Obligations.EveryWordIsInExactlyItsForm : Prop :=
  (∀ (w : Word) (f : Form), f.has w = true ↔ (decode w).form = f) ∧
  Form.all.length = 29 ∧ Form.all.Nodup ∧ ∀ f : Form, f ∈ Form.all

/-- Two words decode alike exactly when they have the same form and differ in ignored bits at most (30_encoding.md R55, a decision the
spec marks as its own). -/
def Obligations.IgnoredBitsAreExactlyTheUnusedBits : Prop :=
  ∀ w v : Word, decode v = decode w ↔
    ((decode v).form = (decode w).form ∧
      v &&& ~~~(decode w).form.ignoredBits = w &&& ~~~(decode w).form.ignoredBits)

/-- The opcode map of 30_encoding.md R49, value by value, and every word's family is its opcode's. -/
def Obligations.OpcodeMapIsTheTable : Prop :=
  (familyOf 0x0 = .br ∧ familyOf 0x1 = .add ∧ familyOf 0x2 = .ldb ∧ familyOf 0x3 = .stb ∧
    familyOf 0x4 = .jsr ∧ familyOf 0x5 = .and ∧ familyOf 0x6 = .ldr ∧ familyOf 0x7 = .str ∧
    familyOf 0x8 = .rti ∧ familyOf 0x9 = .not ∧ familyOf 0xA = .ldi ∧ familyOf 0xB = .sti ∧
    familyOf 0xC = .jmp ∧ familyOf 0xD = .shf ∧ familyOf 0xE = .lea ∧ familyOf 0xF = .trap) ∧
  ∀ w : Word, (decode w).form.family = familyOf (w.extractLsb 15 12)

/-- Inside each family the form is chosen by the tests of 30_encoding.md R51, and no other bit takes part. -/
def Obligations.FormIsChosenByItsTests : Prop :=
  ∀ w : Word,
    (w.extractLsb 15 12 = 0x1#4 → (decode w).form = if w.getLsbD 5 then .addImm else .addReg) ∧
    (w.extractLsb 15 12 = 0x5#4 → (decode w).form = if w.getLsbD 5 then .andImm else .andReg) ∧
    (w.extractLsb 15 12 = 0x0#4 → (decode w).form =
      if w.getLsbD 11 then
        (if w.getLsbD 10 then (if w.getLsbD 9 then .brnzp else .brnz) else (if w.getLsbD 9 then .brnp else .brn))
      else
        (if w.getLsbD 10 then (if w.getLsbD 9 then .brzp else .brz) else (if w.getLsbD 9 then .brp else .br))) ∧
    (w.extractLsb 15 12 = 0xC#4 → (decode w).form = if w.extractLsb 8 6 = 7#3 then .ret else .jmp) ∧
    (w.extractLsb 15 12 = 0x4#4 → (decode w).form = if w.getLsbD 11 then .jsr else .jsrr) ∧
    (w.extractLsb 15 12 = 0xD#4 → (decode w).form =
      if w.getLsbD 4 then (if w.getLsbD 5 then .rshfa else .rshfl) else .lshf) ∧
    (w.extractLsb 15 12 = 0x2#4 → (decode w).form = .ldb) ∧ (w.extractLsb 15 12 = 0x3#4 → (decode w).form = .stb) ∧
    (w.extractLsb 15 12 = 0x6#4 → (decode w).form = .ldr) ∧ (w.extractLsb 15 12 = 0x7#4 → (decode w).form = .str) ∧
    (w.extractLsb 15 12 = 0x8#4 → (decode w).form = .rti) ∧ (w.extractLsb 15 12 = 0x9#4 → (decode w).form = .notReg) ∧
    (w.extractLsb 15 12 = 0xA#4 → (decode w).form = .ldi) ∧ (w.extractLsb 15 12 = 0xB#4 → (decode w).form = .sti) ∧
    (w.extractLsb 15 12 = 0xE#4 → (decode w).form = .lea) ∧ (w.extractLsb 15 12 = 0xF#4 → (decode w).form = .trap)

/-- One word of each form but for seven of BR's eight, its bits written out from the row of 30_encoding.md R52, decodes to the instruction it
stands for. -/
def Obligations.SampleWordsDecode : Prop :=
  decode 0b0000101111111111 = .brnp 511 ∧ decode 0b0001011010100000 = .addImm 3 2 0 ∧
  decode 0b0001001010000011 = .addReg 1 2 3 ∧ decode 0b0010001110111111 = .ldb 1 6 63 ∧
  decode 0b0011000000000000 = .stb 0 0 0 ∧ decode 0b0100101111111111 = .jsr 1023 ∧
  decode 0b0100000111000000 = .jsrr 7 ∧ decode 0b0101101010111111 = .andImm 5 2 31 ∧
  decode 0b0101001010000011 = .andReg 1 2 3 ∧
  decode 0b0110000000000000 = .ldr 0 0 0 ∧ decode 0b0111111111111111 = .str 7 7 63 ∧
  decode 0b1000000000000000 = .rti ∧ decode 0b1001111111111111 = .notReg 7 7 ∧
  decode 0b1010010010100000 = .ldi 2 2 32 ∧ decode 0b1011000111100001 = .sti 0 7 33 ∧
  decode 0b1100000010000000 = .jmp 2 ∧ decode 0b1100000111000000 = .ret ∧
  decode 0b1101000000001000 = .lshf 0 0 8 ∧ decode 0b1101001000011111 = .rshfl 1 0 15 ∧
  decode 0b1101001011110111 = .rshfa 1 3 7 ∧ decode 0b1110001111111111 = .lea 1 511 ∧
  decode 0b1111000000100101 = .trap 0x25

/-- Every Decoded Field sits at its bits, for every word, and the five corrected values are corrected from the five raw fields
(10_state.md R21, 40_datapath.md R64, R65). -/
def Obligations.DecodedFieldsSitAtTheirBits : Prop :=
  ∀ (w : Word) (b : Build),
    (extract w).opcode = w.extractLsb 15 12 ∧ (extract w).rA = w.extractLsb 11 9 ∧
    (extract w).rB = w.extractLsb 8 6 ∧ (extract w).rC = w.extractLsb 2 0 ∧
    (extract w).b11 = w.getLsbD 11 ∧ (extract w).z = w.getLsbD 10 ∧ (extract w).p = w.getLsbD 9 ∧
    (extract w).b5 = w.getLsbD 5 ∧ (extract w).b4 = w.getLsbD 4 ∧
    (extract w).raw4 = w.extractLsb 3 0 ∧ (extract w).raw5 = w.extractLsb 4 0 ∧ (extract w).raw6 = w.extractLsb 5 0 ∧
    (extract w).raw9 = w.extractLsb 8 0 ∧ (extract w).raw11 = w.extractLsb 10 0 ∧ (extract w).vec8 = w.extractLsb 7 0 ∧
    (correct b (extract w)).imm4v = correctedValue b (w.extractLsb 3 0) ∧
    (correct b (extract w)).imm5v = correctedValue b (w.extractLsb 4 0) ∧
    (correct b (extract w)).off6v = correctedValue b (w.extractLsb 5 0) ∧
    (correct b (extract w)).off9v = correctedValue b (w.extractLsb 8 0) ∧
    (correct b (extract w)).off11v = correctedValue b (w.extractLsb 10 0)

/-- The word assembly of 20_memory.md R32 in either byte order (the value of the parameter is the spec's decision D13), its inverse, and the decoder
on bytes, which gives back an encoded well-formed instruction (the rows of 30_encoding.md R52; the encoder is the model's own, log entry 16). -/
def Obligations.WordsAreAssembledInByteOrder : Prop :=
  (∀ b0 b1 : Byte, (assemble true b0 b1).extractLsb 15 8 = b0 ∧ (assemble true b0 b1).extractLsb 7 0 = b1 ∧
    (assemble false b0 b1).extractLsb 15 8 = b1 ∧ (assemble false b0 b1).extractLsb 7 0 = b0) ∧
  (∀ (f : Bool) (w : Word), ∃ b0 b1, wordBytes f w = [b0, b1] ∧ assemble f b0 b1 = w) ∧
  (∀ (f : Bool) (i : Instr) (rest : List Byte), i.wellFormed = true →
    decodeBytes f (encodeBytes f i ++ rest) = .ok (i, rest))

/-! ## The corrector and the text primitives -/

/-- Biased correction for every width of 1 or more, so for 4, 5, 6, 9 and 11: the value, its range, and its three landmarks; and the other setting of
the parameter (30_encoding.md R45). -/
def Obligations.FieldsAreReadInBiasedEncoding : Prop :=
  ∀ (b : Build) (n : Nat) (raw : BitVec n), 1 ≤ n →
    (b.fieldConvention = .bias →
      correctedValue b raw = (raw.toNat : Int) - 2 ^ (n - 1) ∧
      -(2 ^ (n - 1) : Int) ≤ correctedValue b raw ∧ correctedValue b raw ≤ 2 ^ (n - 1) - 1 ∧
      (raw = 0 → correctedValue b raw = -(2 ^ (n - 1) : Int)) ∧
      (raw.toNat = 2 ^ (n - 1) → correctedValue b raw = 0) ∧
      (raw = BitVec.allOnes n → correctedValue b raw = 2 ^ (n - 1) - 1)) ∧
    (b.fieldConvention = .twosComplement → correctedValue b raw = raw.toInt)

/-- The biased value is the two's-complement value of the field with its top bit inverted; the two readings differ by exactly
2^(N-1) and so agree for no pattern (30_encoding.md R46, an inference the spec marks as derived). -/
def Obligations.BiasIsTwosComplementWithTopBitInverted : Prop :=
  ∀ (n : Nat) (raw : BitVec n), 1 ≤ n →
    biasValue raw = (raw ^^^ BitVec.twoPow n (n - 1)).toInt ∧
    (raw.toNat < 2 ^ (n - 1) → biasValue raw = raw.toInt - 2 ^ (n - 1)) ∧
    (2 ^ (n - 1) ≤ raw.toNat → biasValue raw = raw.toInt + 2 ^ (n - 1)) ∧
    biasValue raw ≠ raw.toInt

/-- The printed numbers read back: decimal digits without leading zeros, a `-` exactly on negative values, two hexadecimal digits in the build's
case (00_scope.md R8; sign and case are the spec's decisions D8, D9). The byte codes of the digits, the `-` and the letters are ASCII's, the spec's
decision D7 and from outside the source (93 GK4; log entry 18). -/
def Obligations.PrintedNumbersReadBack : Prop :=
  (∀ n : Nat, decimalValue (dec n) = n ∧ dec n ≠ [] ∧ (∀ c ∈ dec n, 0x30 ≤ c.toNat ∧ c.toNat ≤ 0x39) ∧
    ((dec n).head? = some 0x30#8 → dec n = [0x30#8])) ∧
  (∀ v : Int, (v < 0 → sdec v = 0x2D#8 :: dec v.natAbs) ∧ (0 ≤ v → sdec v = dec v.natAbs)) ∧
  (∀ (upper : Bool) (v : BitVec 8), ∃ h l : Byte, hex2 upper v = [h, l] ∧
    16 * hexDigitValue h + hexDigitValue l = v.toNat ∧
    ∀ c ∈ [h, l], (0x30 ≤ c.toNat ∧ c.toNat ≤ 0x39) ∨
      (upper = true ∧ 0x41 ≤ c.toNat ∧ c.toNat ≤ 0x46) ∨ (upper = false ∧ 0x61 ≤ c.toNat ∧ c.toNat ≤ 0x66))

/-! ## Lines -/

/-- Every line of every build is 4 to 19 bytes, ends in its only LF and holds printable ASCII before it; only RET's is shorter than 6 and 19 is
reached (40_datapath.md R72, a decision of the spec; R73, an inference it marks as derived). -/
def Obligations.EveryLineIsWhole : Prop :=
  (∀ (b : Build) (w : Word) (t : List Byte), decodeToResult b w = .line t →
    LineOk t ∧ (t.length < 6 → (decode w).form = .ret)) ∧
  (∃ t, decodeToResult Build.hardware 0xC1C0 = .line t ∧ t.length = 4) ∧
  (∃ t, decodeToResult Build.hardware 0x8000 = .line t ∧ t.length = 6) ∧
  (∃ t, decodeToResult Build.hardware 0x1FE0 = .line t ∧ t.length = 19)

/-- The formatter writes only the characters of 40_datapath.md R75 (an inference the spec marks as derived), with the LF last. -/
def Obligations.LinesKeepToTheAlphabet : Prop :=
  ∀ (b : Build) (w : Word) (t : List Byte), b.hexUpper = true → decodeToResult b w = .line t →
    ∃ body, t = body ++ [lf] ∧ ∀ c ∈ body, c ∈ lineAlphabet

/-- The `;` is missing exactly on LSHF, RSHFL, RSHFA and RET (40_datapath.md R71). Every other line has exactly one, after a space (R70, decision D6), and
only the LF follows it, but for a named TRAP vector, whose name stands between, after a space (46_trap.md R103, decision D10; log entry 17). -/
def Obligations.SemicolonIsMissingExactlyOnShiftsAndRet : Prop :=
  ∀ (b : Build) (w : Word) (t : List Byte), decodeToResult b w = .line t →
    ((decode w).form ∈ [Form.lshf, .rshfl, .rshfa, .ret] → (0x3B#8 : Byte) ∉ t) ∧
    ((decode w).form ∉ [Form.lshf, .rshfl, .rshfa, .ret] →
      ∃ body rest, t = body ++ ascii " ;" ++ rest ∧ (0x3B#8 : Byte) ∉ body ∧ (0x3B#8 : Byte) ∉ rest ∧
        ((decode w).form ≠ .trap → rest = [lf]) ∧
        ((decode w).form = .trap → rest =
          (match trapName (w.extractLsb 7 0) with | some name => 0x20#8 :: name | none => []) ++ [lf]))

/-- A line begins with the mnemonic of its form's row, and a space or the newline follows it (40_datapath.md R70, decision D6, log entry 17; the rows of
30_encoding.md R52, and the pseudocode of R81 to R103). -/
def Obligations.LineBeginsWithItsFormsMnemonic : Prop :=
  ∀ (b : Build) (w : Word) (t : List Byte), decodeToResult b w = .line t →
    ∃ c rest, t = ascii (decode w).form.row.mnemonic ++ c :: rest ∧ (c = 0x20#8 ∨ c = lf)

/-! ## The forms, family by family

Each has three parts: the instruction's transaction for every operand, the same for every word of the form's row, and the rule's corner cases and
example. The hypotheses are the build's alone: the opcode is not rejected, and where a field is corrected the convention is `BIAS`. -/

/-- ADD (41_add_and.md R81, R82). -/
def Obligations.AddRendersItsLine : Prop :=
  (∀ (s : State) (rd rs : RegIx) (raw : BitVec 5),
    0x1#4 ∉ s.build.undefinedOpcodes → s.build.fieldConvention = .bias →
    exec (.addImm rd rs raw) s =
      .next (s.start (.line (semi (ascii "ADD") [regText rd, regText rs, immText ((raw.toNat : Int) - 16)])))) ∧
  (∀ (s : State) (rd rs rt : RegIx), 0x1#4 ∉ s.build.undefinedOpcodes →
    exec (.addReg rd rs rt) s = .next (s.start (.line (semi (ascii "ADD") [regText rd, regText rs, regText rt])))) ∧
  (∀ w : Word, w &&& 0xF020 = 0x1020 →
    decode w = .addImm (w.extractLsb 11 9) (w.extractLsb 8 6) (w.extractLsb 4 0)) ∧
  (∀ w : Word, w &&& 0xF020 = 0x1000 →
    decode w = .addReg (w.extractLsb 11 9) (w.extractLsb 8 6) (w.extractLsb 2 0)) ∧
  (immText ((0b00000#5).toNat - 16) = ascii "#-16" ∧ immText ((0b10000#5).toNat - 16) = ascii "#0" ∧
    immText ((0b11111#5).toNat - 16) = ascii "#15") ∧
  decodeToResult Build.hardware 0x16A0 = .line (ascii "ADD R3, R2, #-16 ;\n") ∧
  decodeToResult Build.hardware 0x1283 = .line (ascii "ADD R1, R2, R3 ;\n") ∧
  decodeToResult Build.hardware 0x129B = decodeToResult Build.hardware 0x1283

/-- AND (41_add_and.md R83, R84). -/
def Obligations.AndRendersItsLine : Prop :=
  (∀ (s : State) (rd rs : RegIx) (raw : BitVec 5),
    0x5#4 ∉ s.build.undefinedOpcodes → s.build.fieldConvention = .bias →
    exec (.andImm rd rs raw) s =
      .next (s.start (.line (semi (ascii "AND") [regText rd, regText rs, immText ((raw.toNat : Int) - 16)])))) ∧
  (∀ (s : State) (rd rs rt : RegIx), 0x5#4 ∉ s.build.undefinedOpcodes →
    exec (.andReg rd rs rt) s = .next (s.start (.line (semi (ascii "AND") [regText rd, regText rs, regText rt])))) ∧
  (∀ w : Word, w &&& 0xF020 = 0x5020 →
    decode w = .andImm (w.extractLsb 11 9) (w.extractLsb 8 6) (w.extractLsb 4 0)) ∧
  (∀ w : Word, w &&& 0xF020 = 0x5000 →
    decode w = .andReg (w.extractLsb 11 9) (w.extractLsb 8 6) (w.extractLsb 2 0)) ∧
  (immText ((0b00000#5).toNat - 16) = ascii "#-16" ∧ immText ((0b10000#5).toNat - 16) = ascii "#0" ∧
    immText ((0b11111#5).toNat - 16) = ascii "#15") ∧
  decodeToResult Build.hardware 0x5030 = .line (ascii "AND R0, R0, #0 ;\n") ∧
  decodeToResult Build.hardware 0x5ABF = .line (ascii "AND R5, R2, #15 ;\n") ∧
  decodeToResult Build.hardware 0x5018 = .line (ascii "AND R0, R0, R0 ;\n") ∧
  decodeToResult Build.hardware 0x5283 = .line (ascii "AND R1, R2, R3 ;\n")

/-- BR, all eight condition forms (42_control.md R85). -/
def Obligations.BranchFormsRenderTheirLines : Prop :=
  (∀ (s : State) (raw : BitVec 9), 0x0#4 ∉ s.build.undefinedOpcodes → s.build.fieldConvention = .bias →
    exec (.br raw) s = .next (s.start (.line (semi (ascii "BR") [immText ((raw.toNat : Int) - 256)]))) ∧
    exec (.brp raw) s = .next (s.start (.line (semi (ascii "BRp") [immText ((raw.toNat : Int) - 256)]))) ∧
    exec (.brz raw) s = .next (s.start (.line (semi (ascii "BRz") [immText ((raw.toNat : Int) - 256)]))) ∧
    exec (.brzp raw) s = .next (s.start (.line (semi (ascii "BRzp") [immText ((raw.toNat : Int) - 256)]))) ∧
    exec (.brn raw) s = .next (s.start (.line (semi (ascii "BRn") [immText ((raw.toNat : Int) - 256)]))) ∧
    exec (.brnp raw) s = .next (s.start (.line (semi (ascii "BRnp") [immText ((raw.toNat : Int) - 256)]))) ∧
    exec (.brnz raw) s = .next (s.start (.line (semi (ascii "BRnz") [immText ((raw.toNat : Int) - 256)]))) ∧
    exec (.brnzp raw) s = .next (s.start (.line (semi (ascii "BRnzp") [immText ((raw.toNat : Int) - 256)])))) ∧
  (∀ w : Word,
    (w &&& 0xFE00 = 0x0000 → decode w = .br (w.extractLsb 8 0)) ∧
    (w &&& 0xFE00 = 0x0200 → decode w = .brp (w.extractLsb 8 0)) ∧
    (w &&& 0xFE00 = 0x0400 → decode w = .brz (w.extractLsb 8 0)) ∧
    (w &&& 0xFE00 = 0x0600 → decode w = .brzp (w.extractLsb 8 0)) ∧
    (w &&& 0xFE00 = 0x0800 → decode w = .brn (w.extractLsb 8 0)) ∧
    (w &&& 0xFE00 = 0x0A00 → decode w = .brnp (w.extractLsb 8 0)) ∧
    (w &&& 0xFE00 = 0x0C00 → decode w = .brnz (w.extractLsb 8 0)) ∧
    (w &&& 0xFE00 = 0x0E00 → decode w = .brnzp (w.extractLsb 8 0))) ∧
  (immText ((0b000000000#9).toNat - 256) = ascii "#-256" ∧ immText ((0b100000000#9).toNat - 256) = ascii "#0" ∧
    immText ((0b111111111#9).toNat - 256) = ascii "#255") ∧
  decodeToResult Build.hardware 0x0BFF = .line (ascii "BRnp #255 ;\n")

/-- JMP and RET (42_control.md R86, R87). -/
def Obligations.JumpAndReturnRenderTheirLines : Prop :=
  (∀ (s : State) (rb : RegIx), 0xC#4 ∉ s.build.undefinedOpcodes → rb ≠ 7 →
    exec (.jmp rb) s = .next (s.start (.line (semi (ascii "JMP") [regText rb])))) ∧
  (∀ s : State, 0xC#4 ∉ s.build.undefinedOpcodes → exec .ret s = .next (s.start (.line (bare (ascii "RET") [])))) ∧
  (∀ w : Word, w &&& 0xF000 = 0xC000 →
    (w.extractLsb 8 6 ≠ 7#3 → decode w = .jmp (w.extractLsb 8 6)) ∧ (w.extractLsb 8 6 = 7#3 → decode w = .ret)) ∧
  (∀ w : Word, w &&& 0xF1C0 = 0xC1C0 → decode w = .ret) ∧
  bare (ascii "RET") [] = ascii "RET\n" ∧
  decodeToResult Build.hardware 0xC080 = .line (ascii "JMP R2 ;\n") ∧
  decodeToResult Build.hardware 0xCE3F = .line (ascii "JMP R0 ;\n") ∧
  decodeToResult Build.hardware 0xC1C0 = .line (ascii "RET\n") ∧
  ∀ (b : Build) (w : Word), decodeToResult b w ≠ .line (semi (ascii "JMP") [regText 7])

/-- JSR and JSRR (42_control.md R88, R89). -/
def Obligations.CallFormsRenderTheirLines : Prop :=
  (∀ (s : State) (raw : BitVec 11), 0x4#4 ∉ s.build.undefinedOpcodes → s.build.fieldConvention = .bias →
    exec (.jsr raw) s = .next (s.start (.line (semi (ascii "JSR") [immText ((raw.toNat : Int) - 1024)])))) ∧
  (∀ (s : State) (rb : RegIx), 0x4#4 ∉ s.build.undefinedOpcodes →
    exec (.jsrr rb) s = .next (s.start (.line (semi (ascii "JSRR") [regText rb])))) ∧
  (∀ w : Word, (w &&& 0xF800 = 0x4800 → decode w = .jsr (w.extractLsb 10 0)) ∧
    (w &&& 0xF800 = 0x4000 → decode w = .jsrr (w.extractLsb 8 6))) ∧
  (immText ((0#11).toNat - 1024) = ascii "#-1024" ∧ immText ((0x400#11).toNat - 1024) = ascii "#0" ∧
    immText ((0x7FF#11).toNat - 1024) = ascii "#1023") ∧
  decodeToResult Build.hardware 0x4BFF = .line (ascii "JSR #-1 ;\n") ∧
  decodeToResult Build.hardware 0x41C0 = .line (ascii "JSRR R7 ;\n")

/-- LDB, LDI and LDR (43_load_store_lea.md R91 to R93). -/
def Obligations.LoadFormsRenderTheirLines : Prop :=
  (∀ (s : State) (rd rb : RegIx) (raw : BitVec 6), s.build.fieldConvention = .bias →
    (0x2#4 ∉ s.build.undefinedOpcodes → exec (.ldb rd rb raw) s =
      .next (s.start (.line (semi (ascii "LDB") [regText rd, regText rb, immText ((raw.toNat : Int) - 32)])))) ∧
    (0xA#4 ∉ s.build.undefinedOpcodes → exec (.ldi rd rb raw) s =
      .next (s.start (.line (semi (ascii "LDI") [regText rd, regText rb, immText ((raw.toNat : Int) - 32)])))) ∧
    (0x6#4 ∉ s.build.undefinedOpcodes → exec (.ldr rd rb raw) s =
      .next (s.start (.line (semi (ascii "LDR") [regText rd, regText rb, immText ((raw.toNat : Int) - 32)]))))) ∧
  (∀ w : Word,
    (w &&& 0xF000 = 0x2000 → decode w = .ldb (w.extractLsb 11 9) (w.extractLsb 8 6) (w.extractLsb 5 0)) ∧
    (w &&& 0xF000 = 0xA000 → decode w = .ldi (w.extractLsb 11 9) (w.extractLsb 8 6) (w.extractLsb 5 0)) ∧
    (w &&& 0xF000 = 0x6000 → decode w = .ldr (w.extractLsb 11 9) (w.extractLsb 8 6) (w.extractLsb 5 0))) ∧
  (immText ((0b000000#6).toNat - 32) = ascii "#-32" ∧ immText ((0b100000#6).toNat - 32) = ascii "#0" ∧
    immText ((0b111111#6).toNat - 32) = ascii "#31") ∧
  decodeToResult Build.hardware 0x23BF = .line (ascii "LDB R1, R6, #31 ;\n") ∧
  decodeToResult Build.hardware 0xA4A0 = .line (ascii "LDI R2, R2, #0 ;\n") ∧
  decodeToResult Build.hardware 0x6000 = .line (ascii "LDR R0, R0, #-32 ;\n")

/-- STB, STI and STR (43_load_store_lea.md R94 to R96). -/
def Obligations.StoreFormsRenderTheirLines : Prop :=
  (∀ (s : State) (rs rb : RegIx) (raw : BitVec 6), s.build.fieldConvention = .bias →
    (0x3#4 ∉ s.build.undefinedOpcodes → exec (.stb rs rb raw) s =
      .next (s.start (.line (semi (ascii "STB") [regText rs, regText rb, immText ((raw.toNat : Int) - 32)])))) ∧
    (0xB#4 ∉ s.build.undefinedOpcodes → exec (.sti rs rb raw) s =
      .next (s.start (.line (semi (ascii "STI") [regText rs, regText rb, immText ((raw.toNat : Int) - 32)])))) ∧
    (0x7#4 ∉ s.build.undefinedOpcodes → exec (.str rs rb raw) s =
      .next (s.start (.line (semi (ascii "STR") [regText rs, regText rb, immText ((raw.toNat : Int) - 32)]))))) ∧
  (∀ w : Word,
    (w &&& 0xF000 = 0x3000 → decode w = .stb (w.extractLsb 11 9) (w.extractLsb 8 6) (w.extractLsb 5 0)) ∧
    (w &&& 0xF000 = 0xB000 → decode w = .sti (w.extractLsb 11 9) (w.extractLsb 8 6) (w.extractLsb 5 0)) ∧
    (w &&& 0xF000 = 0x7000 → decode w = .str (w.extractLsb 11 9) (w.extractLsb 8 6) (w.extractLsb 5 0))) ∧
  (immText ((0b000000#6).toNat - 32) = ascii "#-32" ∧ immText ((0b100000#6).toNat - 32) = ascii "#0" ∧
    immText ((0b111111#6).toNat - 32) = ascii "#31") ∧
  decodeToResult Build.hardware 0x3000 = .line (ascii "STB R0, R0, #-32 ;\n") ∧
  decodeToResult Build.hardware 0xB1E1 = .line (ascii "STI R0, R7, #1 ;\n") ∧
  decodeToResult Build.hardware 0x7FFF = .line (ascii "STR R7, R7, #31 ;\n")

/-- LEA (43_load_store_lea.md R97). -/
def Obligations.LeaRendersItsLine : Prop :=
  (∀ (s : State) (rd : RegIx) (raw : BitVec 9), 0xE#4 ∉ s.build.undefinedOpcodes → s.build.fieldConvention = .bias →
    exec (.lea rd raw) s =
      .next (s.start (.line (semi (ascii "LEA") [regText rd, immText ((raw.toNat : Int) - 256)])))) ∧
  (∀ w : Word, w &&& 0xF000 = 0xE000 → decode w = .lea (w.extractLsb 11 9) (w.extractLsb 8 0)) ∧
  (immText ((0#9).toNat - 256) = ascii "#-256" ∧ immText ((0x100#9).toNat - 256) = ascii "#0" ∧
    immText ((0x1FF#9).toNat - 256) = ascii "#255") ∧
  decodeToResult Build.hardware 0xE3FF = .line (ascii "LEA R1, #255 ;\n")

/-- NOT and RTI (44_not_rti.md R98, R99). -/
def Obligations.NotAndRtiRenderTheirLines : Prop :=
  (∀ (s : State) (rd rs : RegIx), 0x9#4 ∉ s.build.undefinedOpcodes →
    exec (.notReg rd rs) s = .next (s.start (.line (semi (ascii "NOT") [regText rd, regText rs])))) ∧
  (∀ s : State, 0x8#4 ∉ s.build.undefinedOpcodes → exec .rti s = .next (s.start (.line (semi (ascii "RTI") [])))) ∧
  (∀ w : Word, (w &&& 0xF000 = 0x9000 → decode w = .notReg (w.extractLsb 11 9) (w.extractLsb 8 6)) ∧
    (w &&& 0xF000 = 0x8000 → decode w = .rti)) ∧
  semi (ascii "RTI") [] = ascii "RTI ;\n" ∧
  decodeToResult Build.hardware 0x923F = .line (ascii "NOT R1, R0 ;\n") ∧
  decodeToResult Build.hardware 0x9000 = .line (ascii "NOT R0, R0 ;\n") ∧
  decodeToResult Build.hardware 0x9FFF = .line (ascii "NOT R7, R7 ;\n") ∧
  decodeToResult Build.hardware 0x8000 = .line (ascii "RTI ;\n")

/-- LSHF, RSHFL and RSHFA (45_shf.md R100 to R102). -/
def Obligations.ShiftFormsRenderTheirLines : Prop :=
  (∀ (s : State) (rd rs : RegIx) (raw : BitVec 4),
    0xD#4 ∉ s.build.undefinedOpcodes → s.build.fieldConvention = .bias →
    exec (.lshf rd rs raw) s =
      .next (s.start (.line (bare (ascii "LSHF") [regText rd, regText rs, immText ((raw.toNat : Int) - 8)]))) ∧
    exec (.rshfl rd rs raw) s =
      .next (s.start (.line (bare (ascii "RSHFL") [regText rd, regText rs, immText ((raw.toNat : Int) - 8)]))) ∧
    exec (.rshfa rd rs raw) s =
      .next (s.start (.line (bare (ascii "RSHFA") [regText rd, regText rs, immText ((raw.toNat : Int) - 8)])))) ∧
  (∀ w : Word,
    (w &&& 0xF010 = 0xD000 → decode w = .lshf (w.extractLsb 11 9) (w.extractLsb 8 6) (w.extractLsb 3 0)) ∧
    (w &&& 0xF030 = 0xD010 → decode w = .rshfl (w.extractLsb 11 9) (w.extractLsb 8 6) (w.extractLsb 3 0)) ∧
    (w &&& 0xF030 = 0xD030 → decode w = .rshfa (w.extractLsb 11 9) (w.extractLsb 8 6) (w.extractLsb 3 0))) ∧
  (immText ((0b0000#4).toNat - 8) = ascii "#-8" ∧ immText ((0b1000#4).toNat - 8) = ascii "#0" ∧
    immText ((0b1111#4).toNat - 8) = ascii "#7") ∧
  decodeToResult Build.hardware 0xD000 = .line (ascii "LSHF R0, R0, #-8\n") ∧
  decodeToResult Build.hardware 0xD020 = .line (ascii "LSHF R0, R0, #-8\n") ∧
  decodeToResult Build.hardware 0xD008 = .line (ascii "LSHF R0, R0, #0\n") ∧
  decodeToResult Build.hardware 0xD21F = .line (ascii "RSHFL R1, R0, #7\n") ∧
  decodeToResult Build.hardware 0xD030 = .line (ascii "RSHFA R0, R0, #-8\n") ∧
  decodeToResult Build.hardware 0xD2F7 = .line (ascii "RSHFA R1, R3, #-1\n")

/-- TRAP (46_trap.md R103; the single `;` and the digit case are the spec's decisions D10, D9): for a named vector the name follows the one `;`. -/
def Obligations.TrapRendersItsLine : Prop :=
  (∀ (s : State) (v : BitVec 8), 0xF#4 ∉ s.build.undefinedOpcodes →
    (∀ name, trapName v = some name → exec (.trap v) s =
      .next (s.start (.line (ascii "TRAP " ++ hexText s.build.hexUpper v ++ ascii " ; " ++ name ++ [lf])))) ∧
    (trapName v = none → exec (.trap v) s =
      .next (s.start (.line (semi (ascii "TRAP") [hexText s.build.hexUpper v]))))) ∧
  (∀ w : Word, w &&& 0xF000 = 0xF000 → decode w = .trap (w.extractLsb 7 0)) ∧
  decodeToResult Build.hardware 0xF025 = .line (ascii "TRAP 0x25 ; HALT\n") ∧
  decodeToResult Build.hardware 0xFF25 = .line (ascii "TRAP 0x25 ; HALT\n") ∧
  decodeToResult Build.hardware 0xF024 = .line (ascii "TRAP 0x24 ;\n") ∧
  decodeToResult Build.hardware 0xF000 = .line (ascii "TRAP 0x00 ;\n") ∧
  decodeToResult Build.hardware 0xF0FF = .line (ascii "TRAP 0xFF ;\n")

/-- The TRAP name table is closed: five vectors have a name and every other has none (46_trap.md R104). -/
def Obligations.TrapNameTableIsClosed : Prop :=
  trapName 0x20 = some (ascii "GETC") ∧ trapName 0x21 = some (ascii "OUT") ∧ trapName 0x22 = some (ascii "PUTS") ∧
  trapName 0x23 = some (ascii "IN") ∧ trapName 0x25 = some (ascii "HALT") ∧
  ∀ v : BitVec 8, v ∉ [0x20#8, 0x21#8, 0x22#8, 0x23#8, 0x25#8] → trapName v = none

/-! ## What every instruction does -/

/-- No field decoder raises anything: every instruction whose opcode the build does not reject starts a line, in every state (60_exceptions.md
R108), and a whole one: 4 to 19 bytes of ASCII with the LF last (40_datapath.md R72, decision D7, and R73, an inference the spec marks as derived; log entries
17 and 18). Every constructor of `Instr` completes. -/
def Obligations.NoFieldDecoderRaises : Prop :=
  ∀ (i : Instr) (s : State), i.form.family.opcode ∉ s.build.undefinedOpcodes →
    ∃ t, LineOk t ∧ exec i s = .next (s.start (.line t))

/-- `UndefinedOpcode` is raised exactly for the words whose opcode is in `UNDEFINED_OPCODES`, is the only error a decode has, and produces no line: the
transaction carries status 1, length 0 and no text; with the empty set, as this hardware takes it (decision D12), every word has a line (60_exceptions.md R107,
40_datapath.md R66, R74). -/
def Obligations.UndefinedOpcodeIsRaisedExactlyForRejectedOpcodes : Prop :=
  (∀ (b : Build) (w : Word) (k : ErrorKind), decodeToResult b w = .error k ↔
    (k = .undefinedOpcode ∧ w.extractLsb 15 12 ∈ b.undefinedOpcodes)) ∧
  (∀ (i : Instr) (s : State), i.form.family.opcode ∈ s.build.undefinedOpcodes →
    exec i s = .next (s.start (.error .undefinedOpcode))) ∧
  (∀ (d : Nat) (l : Lane), (l.present d (.error .undefinedOpcode)).outStatus = 1 ∧
    (l.present d (.error .undefinedOpcode)).outLen = 0) ∧
  (∀ w : Word, ∃ t, decodeToResult Build.hardware w = .line t)

/-- `Decode(w)` is computed in four stages, and the instruction a word decodes to starts exactly that result (40_datapath.md R63): the
per-instruction meanings and the datapath on the Decoded Fields agree on every word and every build. -/
def Obligations.ExecFollowsTheFourStages : Prop :=
  (∀ (s : State) (w : Word), exec (decode w) s = .next (s.start (decodeToResult s.build w))) ∧
  (∀ (b : Build) (w : Word) (fam : Family), dispatch b (extract w).opcode = .ok fam →
    decodeToResult b w = .line (familyDecoder b fam (extract w) (correct b (extract w))))

/-- A decode depends on the word and the build alone: whatever the state, its lanes, its history and its time, the same word starts the same
result (10_state.md R22). -/
def Obligations.DecodeDependsOnWordAndBuildAlone : Prop :=
  ∀ (b : Build) (w : Word), ∃ r, ∀ s : State, s.build = b → exec (decode w) s = .next (s.start r)

/-- The frame of every instruction (20_memory.md R35): one transaction joins the queue of the current lane, due in `LATENCY` cycles, and
nothing else changes: no port, no other lane, nothing emitted, no parameter. -/
def Obligations.ExecChangesOneQueueOnly : Prop :=
  ∀ (i : Instr) (s t : State), exec i s = .next t →
    t.build = s.build ∧ t.resetLine = s.resetLine ∧ t.medium = s.medium ∧ t.readsEnded = s.readsEnded ∧
    t.slot = s.slot ∧ t.emitted = s.emitted ∧ t.finalStatus = s.finalStatus ∧ t.drawn = s.drawn ∧
    t.lanes.length = s.lanes.length ∧
    (∀ k, k ≠ s.slot → t.lanes[k]? = s.lanes[k]?) ∧
    (∀ l, s.lanes[s.slot]? = some l → ∃ r l', t.lanes[s.slot]? = some l' ∧
      l'.queue = l.queue ++ [⟨s.build.latency, r⟩] ∧ l'.inValid = l.inValid ∧ l'.inWord = l.inWord ∧
      l'.outValid = l.outValid ∧ l'.outStatus = l.outStatus ∧ l'.outLen = l.outLen ∧ l'.outText = l.outText)

/-! ## Steps -/

/-- A step runs the decoded word: with the run still reading, reset released and two bytes next on the medium, the word they assemble to is presented on
the current lane's input port, its instruction answers a next state, and the step is that state at the end of the lane's turn (10_state.md R20). -/
def Obligations.StepRunsTheDecodedWord : Prop :=
  ∀ (s : State) (b0 b1 : Byte) (rest : List MediumItem),
    s.reading = true → s.resetLine = false → s.medium = .byte b0 :: .byte b1 :: rest →
    ∃ t, exec (decode (assemble s.build.firstByteIsHigh b0 b1)) (s.presentWord (assemble s.build.firstByteIsHigh b0 b1) rest) =
        .next t ∧ step s = .next t.endSlot ∧ t.medium = rest ∧
      ∀ l, s.lanes[s.slot]? = some l → ∃ l', t.lanes[s.slot]? = some l' ∧ l'.inValid = true ∧
        l'.inWord = assemble s.build.firstByteIsHigh b0 b1

/-- A word placed for the next step is the word the next step decodes, whatever state it is placed in (log entry 3). -/
def Obligations.PlacedWordRunsNext : Prop :=
  ∀ (s : State) (w : Word), ∃ t,
    exec (decode w) ((s.withFetchWord 16 w.toNat).presentWord w s.medium) = .next t ∧
    step (s.withFetchWord 16 w.toNat) = .next t.endSlot

/-- Each terminating event ends the reads, a read failure winning over a truncated word (60_exceptions.md R109; R112, decision D19): the step answers a
next state in which the reads have ended with the event's status and the rest of the medium is left; the lane presents nothing (`in_valid` 0, log entry 9); and
the run has that status and no new line at the end of the cycle if nothing is in flight, and goes on within a cycle (log entries 1 and 2; reads in a reset cycle, log entry 15). -/
def Obligations.TerminatingEventsEndTheReads : Prop :=
  ∀ (s : State) (rest : List MediumItem) (b : Byte) (c : IoCause) (f : FinalStatus), s.reading = true →
    ((s.medium = .endOfInput :: rest ∧ f = .clean) ∨
      (s.medium = .byte b :: .endOfInput :: rest ∧ f = .fatal .truncatedInput) ∨
      (s.medium = .failure c :: rest ∧ f = .fatal (.ioFailure c)) ∨
      (s.medium = .byte b :: .failure c :: rest ∧ f = .fatal (.ioFailure c))) →
    ∃ t, step s = .next t ∧ t.readsEnded = some f ∧ t.medium = rest ∧
      (∀ l, s.lanes[s.slot]? = some l → ∃ l', t.lanes[s.slot]? = some l' ∧ l'.inValid = false) ∧
      (s.slot + 1 < s.build.laneCount → t.emitted = s.emitted ∧ t.finalStatus = none) ∧
      (s.build.laneCount ≤ s.slot + 1 → s.drained = true → t.emitted = s.emitted ∧ t.finalStatus = some f)

/-- A turn without a word presents nothing and starts nothing: `in_valid` of the lane is 0 after it (10_state.md R18; log entry 9), and every transaction
in the lane's queue was there before (R13, R20). -/
def Obligations.TurnWithoutAWordPresentsNothing : Prop :=
  ∀ s : State, (∀ k, s.finalStatus ≠ some (.fatal k)) → (∀ w rest, s.nextEvent ≠ some (.word w, rest)) →
    ∃ t, step s = .next t ∧ ∀ l, s.lanes[s.slot]? = some l → ∃ l', t.lanes[s.slot]? = some l' ∧ l'.inValid = false ∧
      (l'.queue.map InFlight.result).Sublist (l.queue.map InFlight.result)

/-- The events of a medium are those of its read attempts in order; a turn without an event loses none, and shortens a medium whose attempt a pause delays
(60_exceptions.md R109; the medium is the model's, log entry 2). -/
def Obligations.ReadAttemptsYieldTheEventsInOrder : Prop :=
  ∀ (f : Bool) (m : List MediumItem),
    (∀ e rest, readAttempt f m = some (e, rest) → eventsOf f m = e :: eventsOf f rest ∧ rest.length < m.length) ∧
    (readAttempt f m = none → eventsOf f (passPause m) = eventsOf f m ∧
      (MediumItem.pause ∈ m → (passPause m).length < m.length) ∧ (MediumItem.pause ∉ m → eventsOf f m = []))

/-- `Fatal(k)` is a final fault: every step of a run that ended so answers it, no other step answers a fault, and no step is refused (60_exceptions.md
R111, decision D15; log entry 13). -/
def Obligations.StepsFaultExactlyAfterAFatalEnd : Prop :=
  (∀ (s : State) (k : ErrorKind), s.finalStatus = some (.fatal k) → step s = .fault k.toFault) ∧
  (∀ (s : State) (r : Fault), step s = .fault r → ∃ k, s.finalStatus = some (.fatal k) ∧ r = k.toFault) ∧
  (∀ (s : State) (r : Refusal), step s ≠ .refused r)

/-- A block with nothing in flight and no event at hand idles: its steps go on, emit nothing and leave it idle; so it is with a run that ended `Clean`
(60_exceptions.md R118). -/
def Obligations.IdleBlockIdles : Prop :=
  ∀ s : State, s.Inv → s.drained = true → s.nextEvent = none → (∀ k, s.finalStatus ≠ some (.fatal k)) →
    s.readsEnded = s.finalStatus →
    ∃ t, step s = .next t ∧ t.drained = true ∧ t.emitted = s.emitted ∧ t.finalStatus = s.finalStatus ∧
      (s.slot + 1 = s.build.laneCount → ∀ l ∈ t.lanes, l.output = none)

/-- No step changes a build parameter (00_scope.md R5, 10_state.md R17). -/
def Obligations.NoStepChangesTheBuild : Prop :=
  ∀ s t : State, step s = .next t → t.build = s.build

/-- Lines once emitted stay emitted, and a step adds at most one line a lane, and only at the end of a cycle (60_exceptions.md R110). -/
def Obligations.EmittedLinesStay : Prop :=
  ∀ s t : State, s.Inv → step s = .next t →
    ∃ new, t.emitted = s.emitted ++ new ∧ new.length ≤ s.build.laneCount ∧
      (s.slot + 1 < s.build.laneCount → new = [])

/-- Lanes share nothing: in a step of one lane every other lane is untouched, or clocked, or cleared by reset, by its own contents alone (60_exceptions.md
R119, decision D3). -/
def Obligations.LanesShareNothing : Prop :=
  ∀ (s t : State) (k : Nat) (l : Lane), step s = .next t → k ≠ s.slot → s.lanes[k]? = some l →
    (s.slot + 1 < s.build.laneCount → t.lanes[k]? = some l) ∧
    (s.build.laneCount ≤ s.slot + 1 → s.resetLine = false → ∃ d, t.lanes[k]? = some (l.clock d)) ∧
    (s.build.laneCount ≤ s.slot + 1 → s.resetLine = true → ∃ d, t.lanes[k]? = some (l.clear d))

/-! ## Reset -/

/-- A build right after reset: nothing in flight, `out_valid` 0, the parameters unchanged, no line and no status; and the parameters of this hardware (10_state.md R25,
decision D14; 00_scope.md R5). -/
def Obligations.ResetStateIsIdle : Prop :=
  (∀ b : Build, (State.afterReset b).build = b ∧ (State.afterReset b).lanes.length = b.laneCount ∧
    (∀ l ∈ (State.afterReset b).lanes, l.queue = [] ∧ l.outValid = false ∧ l.output = none) ∧
    (State.afterReset b).emitted = [] ∧ (State.afterReset b).finalStatus = none) ∧
  State.reset = State.afterReset Build.hardware ∧
  Build.hardware.laneCount = 1 ∧ Build.hardware.undefinedOpcodes = [] ∧ Build.hardware.fieldConvention = .bias ∧
  Build.hardware.hexUpper = true ∧ Build.hardware.firstByteIsHigh = true

/-- A reset cycle: no step of it decodes the word it presents or emits a line, and its last one leaves every lane empty with `out_valid` 0 and releases
reset (70_reset_and_hazards.md R122, R124, decision D14; log entry 15). -/
def Obligations.ResetCycleDiscardsWhatIsInFlight : Prop :=
  ∀ s : State, s.resetLine = true → (∀ k, s.finalStatus ≠ some (.fatal k)) →
    ∃ t, step s = .next t ∧ t.build = s.build ∧ t.emitted = s.emitted ∧
      (s.slot + 1 < s.build.laneCount →
        t.resetLine = true ∧ t.lanes.map Lane.queue = s.lanes.map Lane.queue) ∧
      (s.build.laneCount ≤ s.slot + 1 →
        t.resetLine = false ∧ t.slot = 0 ∧ t.lanes.length = s.lanes.length ∧
        ∀ l ∈ t.lanes, l.queue = [] ∧ l.outValid = false)

/-- The invariant holds after reset, for every build and so for this hardware. -/
def Obligations.InvHoldsAfterReset : Prop :=
  (∀ b : Build, (State.afterReset b).Inv) ∧ State.reset.Inv

/-- Every step keeps the invariant: as many lanes as the build has, well-formed ports (10_state.md R19), queues in order and of at most `LATENCY`
transactions (R24), whole lines only, and a final status that the reads or an `UndefinedOpcode` gave. -/
def Obligations.EveryStepKeepsInv : Prop :=
  ∀ s t : State, s.Inv → step s = .next t → t.Inv

/-! ## Transactions in time -/

/-- A presented result reads back from the port: its status, its length and its bytes (10_state.md R19, R20, decisions D1, D11). -/
def Obligations.PresentedResultReadsBack : Prop :=
  ∀ (d : Nat) (l : Lane) (r : Result), ResultOk r →
    (l.present d r).PortOk ∧ (l.present d r).outValid = true ∧ (l.present d r).output = some r ∧
    (∀ t, r = .line t → (l.present d r).outStatus = 0 ∧ (l.present d r).outLen.toNat = t.length ∧
      (l.present d r).outText.take t.length = t) ∧
    (∀ k, r = .error k → (l.present d r).outStatus = 1 ∧ (l.present d r).outLen = 0)

/-- A lane is a delay line of `LATENCY` cycles: each accepted result is presented exactly once, in input order, `LATENCY` cycles later, and
nothing else is presented (10_state.md R20, 20_memory.md R37, decisions D1 to D3). -/
def Obligations.LaneIsADelayLine : Prop :=
  ∀ (latency draw : Nat) (l : Lane) (ins : List (Option Result)),
    l.queue = [] → (∀ r, some r ∈ ins → ResultOk r) →
    laneOutputs latency draw l (ins ++ List.replicate latency none) = List.replicate latency none ++ ins

/-- A word presented in a lane is on that lane's output port `LATENCY` cycles after the cycle it was presented in, if the run gets that far: the port
carries `Decode` of it (10_state.md R20, decisions D1, D2). -/
def Obligations.OutputComesAfterLatencyCycles : Prop :=
  ∀ (s t : State) (w : Word) (rest : List MediumItem),
    s.Inv → s.resetLine = false → s.nextEvent = some (.word w, rest) →
    Host.Core.run Sys2Proof.core (s.build.laneCount - s.slot + s.build.latency * s.build.laneCount) s = .next t →
    t.slot = 0 ∧ ∃ l, t.lanes[s.slot]? = some l ∧ l.output = some (decodeToResult s.build w)

/-- At most `LATENCY` transactions are in flight in a lane between cycles, and at most one more within a cycle (10_state.md R24, decisions D2,
D3). -/
def Obligations.QueueHoldsAtMostLatency : Prop :=
  ∀ s : State, s.Inv → ∀ l ∈ s.lanes,
    l.queue.length ≤ s.build.latency + 1 ∧ (s.slot = 0 → l.queue.length ≤ s.build.latency)

/-! ## Runs -/

/-- The run ends at its first terminating event and nothing after it counts: the lines of the words before it, or the first `UndefinedOpcode` among
them (60_exceptions.md R110). Words without a terminating event after them give their lines and no status yet, or end at the first `UndefinedOpcode` (log
entry 19). -/
def Obligations.RunEndsAtTheFirstTerminatingEvent : Prop :=
  ∀ (b : Build) (ws : List Word) (e : Event) (f : FinalStatus) (rest : List Event), e.terminal = some f →
    run b (ws.map Event.word ++ e :: rest) =
      (match takeResults [] (ws.map (decodeToResult b)) with
        | (out, some g) => (out, some g)
        | (out, none) => (out, some f)) ∧
    run b (ws.map Event.word) = takeResults [] (ws.map (decodeToResult b))

/-- Loading a program makes its run the one the machine comes to (60_exceptions.md R110; log entry 3). -/
def Obligations.LoadedMachineComesToItsRun : Prop :=
  ∀ (b : Build) (m : List MediumItem), (State.loaded b m).outcome = run b (eventsOf b.firstByteIsHigh m)

/-- Every step keeps what the run comes to: the cycle-level machine, for every `LATENCY` and `LANES`, refines the run of 60_exceptions.md R110
(order of outputs: 20_memory.md R37, decision D3). -/
def Obligations.EveryStepKeepsTheOutcomeOfTheRun : Prop :=
  ∀ s t : State, s.Inv → s.resetLine = false → step s = .next t → t.outcome = s.outcome

/-- A run that ends does end in the machine, with exactly the lines and the status of 60_exceptions.md R110. That it does so within one turn an item of its
medium and `LATENCY` + 1 cycles rests on the model's turns, medium and collaborator (log entries 1, 2 and 10): the spec bounds transactions, not cycles
(70_reset_and_hazards.md R131). -/
def Obligations.MachineFinishesItsRun : Prop :=
  ∀ (b : Build) (m : List MediumItem) (out : List (List Byte)) (f : FinalStatus),
    run b (eventsOf b.firstByteIsHigh m) = (out, some f) →
    ∃ (n : Nat) (t : State), n ≤ m.length + (b.latency + 1) * b.laneCount ∧
      Host.Core.run Sys2Proof.core n (State.loaded b m) = .next t ∧ t.emitted = out ∧ t.finalStatus = some f

/-- Unspecified values cannot be seen: two states that agree on all a reader may read step to two that do, or answer the same fault (10_state.md R19; 93
I6). -/
def Obligations.UnspecifiedValuesCannotBeSeen : Prop :=
  ∀ a b : State, a.SameReadable b →
    (∃ t u, step a = .next t ∧ step b = .next u ∧ t.SameReadable u) ∨
    (∃ r, step a = .fault r ∧ step b = .fault r)

/-- Causes are carried and never read (93 I5; 00_scope.md R5): renaming the causes in a state, in whatever way, renames them in what its step answers and
changes nothing else, so no line, port or kind of outcome depends on one (the carrier of causes is log entry 7). -/
def Obligations.CausesAreCarriedAndNeverRead : Prop :=
  ∀ (f : IoCause → IoCause) (s : State),
    (∀ t, step s = .next t → step (s.mapCause f) = .next (t.mapCause f)) ∧
    (∀ r, step s = .fault r → step (s.mapCause f) = .fault (r.mapCause f))
end

