-- ==== Sys2Proof/Laws/Decode.lean ====
section
/-! SUPPORT. The opcode map and its inverse, and the fields of a packed word. -/

namespace Sys2Proof

/-- The opcode map names every family by its own opcode (30_encoding.md R49). -/
@[simp] theorem familyOf_opcode (f : Family) : familyOf f.opcode = f := by cases f <;> rfl

/-- Every opcode value is its family's: the map is total and one to one (30_encoding.md R50). -/
@[simp] theorem opcode_familyOf (op : BitVec 4) : (familyOf op).opcode = op := by
  revert op; decide

/-- A bit of a placed field. -/
@[simp] theorem placeField_getLsbD (offset : Nat) {n : Nat} (v : BitVec n) (i : Nat) :
    (placeField offset v).getLsbD i = (decide (i < 16) && decide (offset ≤ i) && v.getLsbD (i - offset)) := by
  unfold placeField
  rw [BitVec.getLsbD_shiftLeft, BitVec.getLsbD_setWidth]
  by_cases h1 : i < 16 <;> by_cases h2 : offset ≤ i
  · have h3 : ¬ i < offset := by omega
    have h4 : i - offset < 16 := by omega
    simp [h1, h2, h3, h4]
  · have h3 : i < offset := by omega
    simp [h2, h3]
  all_goals simp [h1]

/-- A bit of a raw field. -/
@[simp] theorem rawField_getLsbD (w : Word) (width offset i : Nat) :
    (rawField w width offset).getLsbD i = (decide (i < width) && w.getLsbD (offset + i)) := by
  simp [rawField]

/-- A bit of a register field. -/
@[simp] theorem registerField_getLsbD (w : Word) (offset i : Nat) :
    (registerField w offset).getLsbD i = (decide (i < 3) && w.getLsbD (offset + i)) := by
  simp [registerField]

/-- A bit that a form's mask fixes is the match's bit. -/
theorem bits_of_and {w m c : Word} (h : w &&& m = c) (i : Nat) :
    (w.getLsbD i && m.getLsbD i) = c.getLsbD i := by
  rw [← h]; simp

/-- A word that meets a row whose mask covers the opcode has the opcode of the row's match. -/
theorem opcode_of_and {w m c : Word} (h : w &&& m = c) (hm : m &&& 0xF000 = 0xF000) :
    (extract w).opcode = c.extractLsb' 12 4 := by
  apply BitVec.eq_of_getLsbD_eq; intro i hi
  have h1 := bits_of_and h (12 + i)
  have h2 := bits_of_and hm (12 + i)
  simp [extract, rawField, hi]
  interval_cases i <;> simp at h1 h2 ⊢ <;> simp_all

/-- The instruction selected is of the family the opcode names (30_encoding.md R49, R51). -/
@[simp] theorem family_selectForm (F : Fields) : (selectForm F).form.family = familyOf F.opcode := by
  obtain ⟨op, rA, rB, rC, b11, z, p, b5, b4, r4, r5, r6, r9, r11, v⟩ := F
  simp only [selectForm]
  cases familyOf op
  case br => cases b11 <;> cases z <;> cases p <;> rfl
  case add => cases b5 <;> rfl
  case and => cases b5 <;> rfl
  case jsr => cases b11 <;> rfl
  case jmp => dsimp only; split <;> rfl
  case shf => cases b4 <;> cases b5 <;> rfl
  all_goals rfl

end Sys2Proof
end

