-- ==== Sys2Proof/Laws/State.lean ====
section
/-! SUPPORT. One lemma per field per update of State and Lane, each true by rfl, so that no later proof unfolds a record update. -/

namespace Sys2Proof.Machine

/-! ## State -/

@[simp] theorem State.onLane_build (f : Lane → Lane) (s : State) : (s.onLane f).build = s.build := rfl

@[simp] theorem State.onLane_resetLine (f : Lane → Lane) (s : State) : (s.onLane f).resetLine = s.resetLine := rfl

@[simp] theorem State.onLane_medium (f : Lane → Lane) (s : State) : (s.onLane f).medium = s.medium := rfl

@[simp] theorem State.onLane_readsEnded (f : Lane → Lane) (s : State) : (s.onLane f).readsEnded = s.readsEnded := rfl

@[simp] theorem State.onLane_lanes (f : Lane → Lane) (s : State) : (s.onLane f).lanes = s.lanes.modify s.slot f := rfl

@[simp] theorem State.onLane_slot (f : Lane → Lane) (s : State) : (s.onLane f).slot = s.slot := rfl

@[simp] theorem State.onLane_emitted (f : Lane → Lane) (s : State) : (s.onLane f).emitted = s.emitted := rfl

@[simp] theorem State.onLane_finalStatus (f : Lane → Lane) (s : State) : (s.onLane f).finalStatus = s.finalStatus := rfl

@[simp] theorem State.onLane_drawn (f : Lane → Lane) (s : State) : (s.onLane f).drawn = s.drawn := rfl

@[simp] theorem State.start_build (r : Result) (s : State) : (s.start r).build = s.build := rfl

@[simp] theorem State.start_resetLine (r : Result) (s : State) : (s.start r).resetLine = s.resetLine := rfl

@[simp] theorem State.start_medium (r : Result) (s : State) : (s.start r).medium = s.medium := rfl

@[simp] theorem State.start_readsEnded (r : Result) (s : State) : (s.start r).readsEnded = s.readsEnded := rfl

@[simp] theorem State.start_lanes (r : Result) (s : State) : (s.start r).lanes = s.lanes.modify s.slot (Lane.accept s.build.latency r) := rfl

@[simp] theorem State.start_slot (r : Result) (s : State) : (s.start r).slot = s.slot := rfl

@[simp] theorem State.start_emitted (r : Result) (s : State) : (s.start r).emitted = s.emitted := rfl

@[simp] theorem State.start_finalStatus (r : Result) (s : State) : (s.start r).finalStatus = s.finalStatus := rfl

@[simp] theorem State.start_drawn (r : Result) (s : State) : (s.start r).drawn = s.drawn := rfl

@[simp] theorem State.raise_eq (k : ErrorKind) (s : State) : s.raise k = s.start (.error k) := rfl

@[simp] theorem State.presentWord_build (w : Word) (rest : List MediumItem) (s : State) : (s.presentWord w rest).build = s.build := rfl

@[simp] theorem State.presentWord_resetLine (w : Word) (rest : List MediumItem) (s : State) : (s.presentWord w rest).resetLine = s.resetLine := rfl

@[simp] theorem State.presentWord_medium (w : Word) (rest : List MediumItem) (s : State) : (s.presentWord w rest).medium = rest := rfl

@[simp] theorem State.presentWord_readsEnded (w : Word) (rest : List MediumItem) (s : State) : (s.presentWord w rest).readsEnded = s.readsEnded := rfl

@[simp] theorem State.presentWord_lanes (w : Word) (rest : List MediumItem) (s : State) : (s.presentWord w rest).lanes = s.lanes.modify s.slot (Lane.driveWord w) := rfl

@[simp] theorem State.presentWord_slot (w : Word) (rest : List MediumItem) (s : State) : (s.presentWord w rest).slot = s.slot := rfl

@[simp] theorem State.presentWord_emitted (w : Word) (rest : List MediumItem) (s : State) : (s.presentWord w rest).emitted = s.emitted := rfl

@[simp] theorem State.presentWord_finalStatus (w : Word) (rest : List MediumItem) (s : State) : (s.presentWord w rest).finalStatus = s.finalStatus := rfl

@[simp] theorem State.presentWord_drawn (w : Word) (rest : List MediumItem) (s : State) : (s.presentWord w rest).drawn = s.drawn := rfl

@[simp] theorem State.presentNothing_build (s : State) : (s.presentNothing).build = s.build := rfl

@[simp] theorem State.presentNothing_resetLine (s : State) : (s.presentNothing).resetLine = s.resetLine := rfl

@[simp] theorem State.presentNothing_medium (s : State) : (s.presentNothing).medium = s.medium := rfl

@[simp] theorem State.presentNothing_readsEnded (s : State) : (s.presentNothing).readsEnded = s.readsEnded := rfl

@[simp] theorem State.presentNothing_lanes (s : State) : (s.presentNothing).lanes = s.lanes.modify s.slot (Lane.driveNothing s.drawn) := rfl

@[simp] theorem State.presentNothing_slot (s : State) : (s.presentNothing).slot = s.slot := rfl

@[simp] theorem State.presentNothing_emitted (s : State) : (s.presentNothing).emitted = s.emitted := rfl

@[simp] theorem State.presentNothing_finalStatus (s : State) : (s.presentNothing).finalStatus = s.finalStatus := rfl

@[simp] theorem State.presentNothing_drawn (s : State) : (s.presentNothing).drawn = s.drawn + 1 := rfl

@[simp] theorem State.waitTurn_build (s : State) : (s.waitTurn).build = s.build := rfl

@[simp] theorem State.waitTurn_resetLine (s : State) : (s.waitTurn).resetLine = s.resetLine := rfl

@[simp] theorem State.waitTurn_medium (s : State) : (s.waitTurn).medium = if s.reading then passPause s.medium else s.medium := rfl

@[simp] theorem State.waitTurn_readsEnded (s : State) : (s.waitTurn).readsEnded = s.readsEnded := rfl

@[simp] theorem State.waitTurn_lanes (s : State) : (s.waitTurn).lanes = s.lanes.modify s.slot (Lane.driveNothing s.drawn) := rfl

@[simp] theorem State.waitTurn_slot (s : State) : (s.waitTurn).slot = s.slot := rfl

@[simp] theorem State.waitTurn_emitted (s : State) : (s.waitTurn).emitted = s.emitted := rfl

@[simp] theorem State.waitTurn_finalStatus (s : State) : (s.waitTurn).finalStatus = s.finalStatus := rfl

@[simp] theorem State.waitTurn_drawn (s : State) : (s.waitTurn).drawn = s.drawn + 1 := rfl

@[simp] theorem State.endReads_build (f : FinalStatus) (rest : List MediumItem) (s : State) : (s.endReads f rest).build = s.build := rfl

@[simp] theorem State.endReads_resetLine (f : FinalStatus) (rest : List MediumItem) (s : State) : (s.endReads f rest).resetLine = s.resetLine := rfl

@[simp] theorem State.endReads_medium (f : FinalStatus) (rest : List MediumItem) (s : State) : (s.endReads f rest).medium = rest := rfl

@[simp] theorem State.endReads_readsEnded (f : FinalStatus) (rest : List MediumItem) (s : State) : (s.endReads f rest).readsEnded = some f := rfl

@[simp] theorem State.endReads_lanes (f : FinalStatus) (rest : List MediumItem) (s : State) : (s.endReads f rest).lanes = s.lanes.modify s.slot (Lane.driveNothing s.drawn) := rfl

@[simp] theorem State.endReads_slot (f : FinalStatus) (rest : List MediumItem) (s : State) : (s.endReads f rest).slot = s.slot := rfl

@[simp] theorem State.endReads_emitted (f : FinalStatus) (rest : List MediumItem) (s : State) : (s.endReads f rest).emitted = s.emitted := rfl

@[simp] theorem State.endReads_finalStatus (f : FinalStatus) (rest : List MediumItem) (s : State) : (s.endReads f rest).finalStatus = s.finalStatus := rfl

@[simp] theorem State.endReads_drawn (f : FinalStatus) (rest : List MediumItem) (s : State) : (s.endReads f rest).drawn = s.drawn + 1 := rfl

@[simp] theorem State.loadWord_build (w : Word) (s : State) : (s.loadWord w).build = s.build := rfl

@[simp] theorem State.loadWord_resetLine (w : Word) (s : State) : (s.loadWord w).resetLine = false := rfl

@[simp] theorem State.loadWord_medium (w : Word) (s : State) : (s.loadWord w).medium = (wordBytes s.build.firstByteIsHigh w).map MediumItem.byte ++ s.medium := rfl

@[simp] theorem State.loadWord_readsEnded (w : Word) (s : State) : (s.loadWord w).readsEnded = none := rfl

@[simp] theorem State.loadWord_lanes (w : Word) (s : State) : (s.loadWord w).lanes = s.lanes := rfl

@[simp] theorem State.loadWord_slot (w : Word) (s : State) : (s.loadWord w).slot = s.slot := rfl

@[simp] theorem State.loadWord_emitted (w : Word) (s : State) : (s.loadWord w).emitted = s.emitted := rfl

@[simp] theorem State.loadWord_finalStatus (w : Word) (s : State) : (s.loadWord w).finalStatus = none := rfl

@[simp] theorem State.loadWord_drawn (w : Word) (s : State) : (s.loadWord w).drawn = s.drawn := rfl

/-! ## Lane -/

@[simp] theorem Lane.driveWord_inValid (w : Word) (l : Lane) : (l.driveWord w).inValid = true := rfl

@[simp] theorem Lane.driveWord_inWord (w : Word) (l : Lane) : (l.driveWord w).inWord = w := rfl

@[simp] theorem Lane.driveWord_queue (w : Word) (l : Lane) : (l.driveWord w).queue = l.queue := rfl

@[simp] theorem Lane.driveWord_outValid (w : Word) (l : Lane) : (l.driveWord w).outValid = l.outValid := rfl

@[simp] theorem Lane.driveWord_outStatus (w : Word) (l : Lane) : (l.driveWord w).outStatus = l.outStatus := rfl

@[simp] theorem Lane.driveWord_outLen (w : Word) (l : Lane) : (l.driveWord w).outLen = l.outLen := rfl

@[simp] theorem Lane.driveWord_outText (w : Word) (l : Lane) : (l.driveWord w).outText = l.outText := rfl

@[simp] theorem Lane.driveNothing_inValid (d : Nat) (l : Lane) : (l.driveNothing d).inValid = false := rfl

@[simp] theorem Lane.driveNothing_inWord (d : Nat) (l : Lane) : (l.driveNothing d).inWord = Config.freeWord d := rfl

@[simp] theorem Lane.driveNothing_queue (d : Nat) (l : Lane) : (l.driveNothing d).queue = l.queue := rfl

@[simp] theorem Lane.driveNothing_outValid (d : Nat) (l : Lane) : (l.driveNothing d).outValid = l.outValid := rfl

@[simp] theorem Lane.driveNothing_outStatus (d : Nat) (l : Lane) : (l.driveNothing d).outStatus = l.outStatus := rfl

@[simp] theorem Lane.driveNothing_outLen (d : Nat) (l : Lane) : (l.driveNothing d).outLen = l.outLen := rfl

@[simp] theorem Lane.driveNothing_outText (d : Nat) (l : Lane) : (l.driveNothing d).outText = l.outText := rfl

@[simp] theorem Lane.accept_inValid (n : Nat) (r : Result) (l : Lane) : (l.accept n r).inValid = l.inValid := rfl

@[simp] theorem Lane.accept_inWord (n : Nat) (r : Result) (l : Lane) : (l.accept n r).inWord = l.inWord := rfl

@[simp] theorem Lane.accept_queue (n : Nat) (r : Result) (l : Lane) : (l.accept n r).queue = l.queue ++ [⟨n, r⟩] := rfl

@[simp] theorem Lane.accept_outValid (n : Nat) (r : Result) (l : Lane) : (l.accept n r).outValid = l.outValid := rfl

@[simp] theorem Lane.accept_outStatus (n : Nat) (r : Result) (l : Lane) : (l.accept n r).outStatus = l.outStatus := rfl

@[simp] theorem Lane.accept_outLen (n : Nat) (r : Result) (l : Lane) : (l.accept n r).outLen = l.outLen := rfl

@[simp] theorem Lane.accept_outText (n : Nat) (r : Result) (l : Lane) : (l.accept n r).outText = l.outText := rfl

@[simp] theorem Lane.present_inValid (d : Nat) (r : Result) (l : Lane) : (l.present d r).inValid = l.inValid := rfl

@[simp] theorem Lane.present_inWord (d : Nat) (r : Result) (l : Lane) : (l.present d r).inWord = l.inWord := rfl

@[simp] theorem Lane.present_queue (d : Nat) (r : Result) (l : Lane) : (l.present d r).queue = l.queue := rfl

@[simp] theorem Lane.present_outValid (d : Nat) (r : Result) (l : Lane) : (l.present d r).outValid = true := rfl

@[simp] theorem Lane.present_outStatus (d : Nat) (r : Result) (l : Lane) : (l.present d r).outStatus = r.status := rfl

@[simp] theorem Lane.present_outLen (d : Nat) (r : Result) (l : Lane) : (l.present d r).outLen = BitVec.ofNat 5 r.text.length := rfl

@[simp] theorem Lane.present_outText (d : Nat) (r : Result) (l : Lane) : (l.present d r).outText = padText d r.text := rfl

@[simp] theorem Lane.presentNothing_inValid (d : Nat) (l : Lane) : (l.presentNothing d).inValid = l.inValid := rfl

@[simp] theorem Lane.presentNothing_inWord (d : Nat) (l : Lane) : (l.presentNothing d).inWord = l.inWord := rfl

@[simp] theorem Lane.presentNothing_queue (d : Nat) (l : Lane) : (l.presentNothing d).queue = l.queue := rfl

@[simp] theorem Lane.presentNothing_outValid (d : Nat) (l : Lane) : (l.presentNothing d).outValid = false := rfl

@[simp] theorem Lane.presentNothing_outStatus (d : Nat) (l : Lane) : (l.presentNothing d).outStatus = Config.freeStatus d := rfl

@[simp] theorem Lane.presentNothing_outLen (d : Nat) (l : Lane) : (l.presentNothing d).outLen = Config.freeLen d := rfl

@[simp] theorem Lane.presentNothing_outText (d : Nat) (l : Lane) : (l.presentNothing d).outText = padText d [] := rfl

@[simp] theorem Lane.clear_inValid (d : Nat) (l : Lane) : (l.clear d).inValid = l.inValid := rfl

@[simp] theorem Lane.clear_inWord (d : Nat) (l : Lane) : (l.clear d).inWord = l.inWord := rfl

@[simp] theorem Lane.clear_queue (d : Nat) (l : Lane) : (l.clear d).queue = [] := rfl

@[simp] theorem Lane.clear_outValid (d : Nat) (l : Lane) : (l.clear d).outValid = false := rfl

@[simp] theorem Lane.clear_outStatus (d : Nat) (l : Lane) : (l.clear d).outStatus = Config.freeStatus d := rfl

@[simp] theorem Lane.clear_outLen (d : Nat) (l : Lane) : (l.clear d).outLen = Config.freeLen d := rfl

@[simp] theorem Lane.clear_outText (d : Nat) (l : Lane) : (l.clear d).outText = padText d [] := rfl

/-! ## Renaming causes -/

@[simp] theorem State.mapCause_build (f : IoCause → IoCause) (s : State) : (s.mapCause f).build = s.build := rfl

@[simp] theorem State.mapCause_resetLine (f : IoCause → IoCause) (s : State) : (s.mapCause f).resetLine = s.resetLine := rfl

@[simp] theorem State.mapCause_medium (f : IoCause → IoCause) (s : State) : (s.mapCause f).medium = s.medium.map (MediumItem.mapCause f) := rfl

@[simp] theorem State.mapCause_readsEnded (f : IoCause → IoCause) (s : State) : (s.mapCause f).readsEnded = s.readsEnded.map (FinalStatus.mapCause f) := rfl

@[simp] theorem State.mapCause_lanes (f : IoCause → IoCause) (s : State) : (s.mapCause f).lanes = s.lanes.map (Lane.mapCause f) := rfl

@[simp] theorem State.mapCause_slot (f : IoCause → IoCause) (s : State) : (s.mapCause f).slot = s.slot := rfl

@[simp] theorem State.mapCause_emitted (f : IoCause → IoCause) (s : State) : (s.mapCause f).emitted = s.emitted := rfl

@[simp] theorem State.mapCause_finalStatus (f : IoCause → IoCause) (s : State) : (s.mapCause f).finalStatus = s.finalStatus.map (FinalStatus.mapCause f) := rfl

@[simp] theorem State.mapCause_drawn (f : IoCause → IoCause) (s : State) : (s.mapCause f).drawn = s.drawn := rfl

@[simp] theorem Lane.mapCause_inValid (f : IoCause → IoCause) (l : Lane) : (l.mapCause f).inValid = l.inValid := rfl

@[simp] theorem Lane.mapCause_inWord (f : IoCause → IoCause) (l : Lane) : (l.mapCause f).inWord = l.inWord := rfl

@[simp] theorem Lane.mapCause_outValid (f : IoCause → IoCause) (l : Lane) : (l.mapCause f).outValid = l.outValid := rfl

@[simp] theorem Lane.mapCause_outStatus (f : IoCause → IoCause) (l : Lane) : (l.mapCause f).outStatus = l.outStatus := rfl

@[simp] theorem Lane.mapCause_outLen (f : IoCause → IoCause) (l : Lane) : (l.mapCause f).outLen = l.outLen := rfl

@[simp] theorem Lane.mapCause_outText (f : IoCause → IoCause) (l : Lane) : (l.mapCause f).outText = l.outText := rfl

@[simp] theorem Lane.mapCause_queue (f : IoCause → IoCause) (l : Lane) :
    (l.mapCause f).queue = l.queue.map fun e => ⟨e.wait, e.result.mapCause f⟩ := rfl

/-- A reader of the port sees no cause. -/
@[simp] theorem Lane.mapCause_output (f : IoCause → IoCause) (l : Lane) : (l.mapCause f).output = l.output := rfl

@[simp] theorem Result.mapCause_status (f : IoCause → IoCause) (r : Result) : (r.mapCause f).status = r.status := by
  rcases r with t | _ | _ | c <;> rfl

@[simp] theorem Result.mapCause_text (f : IoCause → IoCause) (r : Result) : (r.mapCause f).text = r.text := by
  cases r <;> rfl

@[simp] theorem ErrorKind.toFault_mapCause (f : IoCause → IoCause) (k : ErrorKind) : (k.mapCause f).toFault = k.toFault.mapCause f := by
  cases k <;> rfl

end Sys2Proof.Machine
end

