-- ==== Sys2Proof/Laws/Ops.lean ====
section
/-! SUPPORT. What the shared operations do, said once each. -/

namespace Sys2Proof.Machine

/-! ## Lanes -/

@[simp] theorem padText_length (d : Nat) (t : List Byte) : (padText d t).length = lineMax := by
  simp [padText]

/-- No free byte stands below the length of the text. -/
theorem padText_take (d : Nat) (t : List Byte) (n : Nat) (hn : n ≤ t.length) (hmax : n ≤ lineMax) :
    (padText d t).take n = t.take n := by
  apply List.ext_getElem
  · simp [padText]; omega
  · intro i h1 h2
    have hi : i < t.length := by simp at h2; omega
    simp [padText, hi]

/-- Clocking a lane: an oldest transaction that is due is presented, and otherwise nothing is. -/
theorem Lane.clock_cases (d : Nat) (l : Lane) :
    (∃ r rest, l.queue = ⟨0, r⟩ :: rest ∧
      l.clock d = Lane.present d r { l with queue := rest.map InFlight.age }) ∨
    ((∀ e rest, l.queue = e :: rest → e.wait ≠ 0) ∧
      l.clock d = Lane.presentNothing d { l with queue := l.queue.map InFlight.age }) := by
  unfold Lane.clock
  split
  · rename_i r rest h
    exact .inl ⟨r, rest, h, rfl⟩
  · rename_i h
    refine .inr ⟨?_, rfl⟩
    rintro ⟨w, r⟩ rest he hw
    simp only at hw
    subst hw
    exact h r rest he

/-- A lane with nothing in flight presents nothing. -/
theorem Lane.clock_empty (d : Nat) {l : Lane} (h : l.queue = []) : l.clock d = l.presentNothing d := by
  obtain ⟨v, w, q, ov, os, ol, ot⟩ := l
  subst h
  rfl

/-- The input port is not touched by the clock. -/
@[simp] theorem Lane.clock_inValid (d : Nat) (l : Lane) : (l.clock d).inValid = l.inValid := by
  rcases l.clock_cases d with ⟨_, _, _, h⟩ | ⟨_, h⟩ <;> simp [h]

@[simp] theorem Lane.clock_inWord (d : Nat) (l : Lane) : (l.clock d).inWord = l.inWord := by
  rcases l.clock_cases d with ⟨_, _, _, h⟩ | ⟨_, h⟩ <;> simp [h]

@[simp] theorem InFlight.age_wait (e : InFlight) : e.age.wait = e.wait - 1 := rfl

@[simp] theorem InFlight.age_result (e : InFlight) : e.age.result = e.result := rfl

/-- Nothing may be read from a port that presents nothing. -/
@[simp] theorem Lane.presentNothing_output (d : Nat) (l : Lane) : (l.presentNothing d).output = none := by
  simp [Lane.output]

@[simp] theorem clockLanes_length (f : Nat → Lane → Lane) (d : Nat) (ls : List Lane) :
    (clockLanes f d ls).length = ls.length := by
  induction ls generalizing d with
  | nil => rfl
  | cons l ls ih => simp [clockLanes, ih]

@[simp] theorem clockLanes_getElem? (f : Nat → Lane → Lane) (d k : Nat) (ls : List Lane) :
    (clockLanes f d ls)[k]? = ls[k]?.map (f (d + k)) := by
  induction ls generalizing d k with
  | nil => simp [clockLanes]
  | cons l ls ih =>
    cases k with
    | zero => simp [clockLanes]
    | succ k => simp [clockLanes, ih, Nat.add_comm, Nat.add_left_comm]

/-! ## Taking outputs and settling -/

/-- Taking an output: a line joins `out`, an error ends the run, and otherwise nothing happens. -/
theorem State.takeOutput_cases (s : State) (o : Option Result) :
    (∃ t, s.finalStatus = none ∧ o = some (.line t) ∧ s.takeOutput o = { s with emitted := s.emitted ++ [t] }) ∨
    (∃ k, s.finalStatus = none ∧ o = some (.error k) ∧ s.takeOutput o = { s with finalStatus := some (.fatal k) }) ∨
    ((s.finalStatus ≠ none ∨ o = none) ∧ s.takeOutput o = s) := by
  unfold State.takeOutput
  cases hf : s.finalStatus with
  | some f => exact .inr (.inr ⟨.inl (by simp), rfl⟩)
  | none =>
    match o with
    | none => exact .inr (.inr ⟨.inr rfl, rfl⟩)
    | some (.line t) => exact .inl ⟨t, rfl, rfl, rfl⟩
    | some (.error k) => exact .inr (.inl ⟨k, rfl, rfl, rfl⟩)

@[simp] theorem State.takeOutput_none (s : State) : s.takeOutput none = s := by
  unfold State.takeOutput
  split <;> simp_all

/-- Taking from ports that present nothing changes nothing. -/
theorem State.takeOutputList_none (os : List (Option Result)) (s : State) (h : ∀ o ∈ os, o = none) :
    os.foldl State.takeOutput s = s := by
  induction os generalizing s with
  | nil => rfl
  | cons o os ih =>
    rw [List.foldl_cons, h o (by simp), State.takeOutput_none]
    exact ih s fun o ho => h o (by simp [ho])

/-- Settling: a run with nothing in flight takes the status its reads ended with, and otherwise nothing happens. -/
theorem State.settle_cases (s : State) :
    (s.finalStatus = none ∧ s.drained = true ∧ s.settle = { s with finalStatus := s.readsEnded }) ∨
    ((s.finalStatus ≠ none ∨ s.drained = false) ∧ s.settle = s) := by
  unfold State.settle
  split
  · rename_i h
    simp only [Bool.and_eq_true, Option.isNone_iff_eq_none] at h
    exact .inl ⟨h.1, h.2, rfl⟩
  · rename_i h
    refine .inr ⟨?_, rfl⟩
    cases hf : s.finalStatus with
    | some f => exact .inl (by simp)
    | none => exact .inr (by simpa [hf] using h)

/-- What taking outputs and settling leave alone: all but the emitted lines and the final status. -/
theorem State.takeOutput_frame (s : State) (o : Option Result) :
    (s.takeOutput o).build = s.build ∧ (s.takeOutput o).resetLine = s.resetLine ∧
    (s.takeOutput o).medium = s.medium ∧ (s.takeOutput o).readsEnded = s.readsEnded ∧
    (s.takeOutput o).lanes = s.lanes ∧ (s.takeOutput o).slot = s.slot ∧ (s.takeOutput o).drawn = s.drawn := by
  rcases s.takeOutput_cases o with ⟨_, _, _, h⟩ | ⟨_, _, _, h⟩ | ⟨_, h⟩ <;> simp [h]

theorem State.takeOutputList_frame (os : List (Option Result)) (s : State) :
    (os.foldl State.takeOutput s).build = s.build ∧ (os.foldl State.takeOutput s).resetLine = s.resetLine ∧
    (os.foldl State.takeOutput s).medium = s.medium ∧ (os.foldl State.takeOutput s).readsEnded = s.readsEnded ∧
    (os.foldl State.takeOutput s).lanes = s.lanes ∧ (os.foldl State.takeOutput s).slot = s.slot ∧
    (os.foldl State.takeOutput s).drawn = s.drawn := by
  induction os generalizing s with
  | nil => simp
  | cons o os ih =>
    obtain ⟨a, b, c, d, e, f, g⟩ := s.takeOutput_frame o
    simpa [a, b, c, d, e, f, g] using ih (s.takeOutput o)

theorem State.settle_frame (s : State) :
    s.settle.build = s.build ∧ s.settle.resetLine = s.resetLine ∧ s.settle.medium = s.medium ∧
    s.settle.readsEnded = s.readsEnded ∧ s.settle.lanes = s.lanes ∧ s.settle.slot = s.slot ∧
    s.settle.emitted = s.emitted ∧ s.settle.drawn = s.drawn := by
  rcases s.settle_cases with ⟨_, _, h⟩ | ⟨_, h⟩ <;> simp [h]

/-! ## The end of a turn -/

/-- The end of a turn: the next lane's turn, the end of a reset cycle, or the end of a cycle. -/
theorem State.endSlot_cases (s : State) :
    (s.slot + 1 < s.build.laneCount ∧ s.endSlot = { s with slot := s.slot + 1 }) ∨
    (s.build.laneCount ≤ s.slot + 1 ∧ s.resetLine = true ∧ s.endSlot = s.resetTick) ∨
    (s.build.laneCount ≤ s.slot + 1 ∧ s.resetLine = false ∧ s.endSlot = s.tick) := by
  unfold State.endSlot
  split
  · exact .inl ⟨‹_›, rfl⟩
  · cases hr : s.resetLine with
    | true => exact .inr (.inl ⟨by omega, rfl, rfl⟩)
    | false => exact .inr (.inr ⟨by omega, rfl, rfl⟩)

/-- The end of a cycle, field by field but for the emitted lines and the final status. -/
theorem State.tick_frame (s : State) :
    s.tick.build = s.build ∧ s.tick.resetLine = s.resetLine ∧ s.tick.medium = s.medium ∧
    s.tick.readsEnded = s.readsEnded ∧ s.tick.lanes = clockLanes Lane.clock s.drawn s.lanes ∧ s.tick.slot = 0 ∧
    s.tick.drawn = s.drawn + s.lanes.length := by
  unfold State.tick State.takeOutputs
  obtain ⟨a, b, c, d, e, f, _, g⟩ := State.settle_frame
    (List.foldl State.takeOutput
      { s with lanes := clockLanes Lane.clock s.drawn s.lanes, drawn := s.drawn + s.lanes.length, slot := 0 }
      ((clockLanes Lane.clock s.drawn s.lanes).map Lane.output))
  obtain ⟨a', b', c', d', e', f', g'⟩ := State.takeOutputList_frame
    ((clockLanes Lane.clock s.drawn s.lanes).map Lane.output)
    { s with lanes := clockLanes Lane.clock s.drawn s.lanes, drawn := s.drawn + s.lanes.length, slot := 0 }
  exact ⟨a.trans a', b.trans b', c.trans c', d.trans d', e.trans e', f.trans f', g.trans g'⟩

/-- The end of a reset cycle, field by field but for the final status. -/
theorem State.resetTick_frame (s : State) :
    s.resetTick.build = s.build ∧ s.resetTick.resetLine = false ∧ s.resetTick.medium = s.medium ∧
    s.resetTick.readsEnded = s.readsEnded ∧ s.resetTick.lanes = clockLanes Lane.clear s.drawn s.lanes ∧
    s.resetTick.slot = 0 ∧ s.resetTick.emitted = s.emitted ∧ s.resetTick.drawn = s.drawn + s.lanes.length :=
  State.settle_frame _

/-! ## Reading -/

/-- A word read stands on the medium as its two bytes in the build's order. -/
theorem readAttempt_word {f : Bool} {m rest : List MediumItem} {w : Word}
    (h : readAttempt f m = some (.word w, rest)) :
    ∃ b0 b1, m = .byte b0 :: .byte b1 :: rest ∧ w = assemble f b0 b1 := by
  unfold readAttempt at h
  split at h <;> simp_all

/-- The word assembly undoes the byte order (20_memory.md R32). -/
@[simp] theorem readAttempt_wordBytes (f : Bool) (w : Word) (m : List MediumItem) :
    readAttempt f ((wordBytes f w).map MediumItem.byte ++ m) = some (.word w, m) := by
  have h : (assemble true (w.extractLsb' 8 8) (w.extractLsb' 0 8)) = w := by
    apply BitVec.eq_of_getLsbD_eq
    intro i hi
    interval_cases i <;> simp [assemble, placeField]
  cases f <;> simpa [wordBytes, readAttempt, assemble] using h

end Sys2Proof.Machine
end

