-- ==== Sys2Proof/Laws/PerInstr.lean ====
section
/-! SUPPORT. Statements made for every instruction form as syntax, one lemma a constructor. -/

namespace Sys2Proof

/-- Two words are equal if they agree on each of their 16 bits. -/
theorem word_eq_of_bits {a b : Word} (h : ∀ i, i < 16 → a.getLsbD i = b.getLsbD i) : a = b :=
  BitVec.eq_of_getLsbD_eq fun i hi => h i hi

/-- A form without JMP's extra condition has every word that meets its match under its mask. -/
theorem Form.has_of_and {f : Form} {w : Word} (hf : f.row.notBase7 = false) (h : w &&& f.row.mask = f.row.matchBits) :
    f.has w = true := by
  simp [Form.has, hf, h]

end Sys2Proof

namespace Sys2Proof.Laws.TableRow

/-- The word of a well-formed instruction is in the instruction's row of the form table: it has the row's match under the row's
mask, and JMP's is not RET's (30_encoding.md R52). -/
def Statement (i : Instr) : Prop := i.wellFormed = true → i.form.has (encode i) = true

theorem br (o : BitVec 9): Statement (.br o) := by
  intro _
  refine Form.has_of_and rfl (word_eq_of_bits fun i hi => ?_)
  interval_cases i <;> simp [Instr.form, Form.row, encode, placeBranch, placeField, Family.opcode]

theorem brp (o : BitVec 9): Statement (.brp o) := by
  intro _
  refine Form.has_of_and rfl (word_eq_of_bits fun i hi => ?_)
  interval_cases i <;> simp [Instr.form, Form.row, encode, placeBranch, placeField, Family.opcode]

theorem brz (o : BitVec 9): Statement (.brz o) := by
  intro _
  refine Form.has_of_and rfl (word_eq_of_bits fun i hi => ?_)
  interval_cases i <;> simp [Instr.form, Form.row, encode, placeBranch, placeField, Family.opcode]

theorem brzp (o : BitVec 9): Statement (.brzp o) := by
  intro _
  refine Form.has_of_and rfl (word_eq_of_bits fun i hi => ?_)
  interval_cases i <;> simp [Instr.form, Form.row, encode, placeBranch, placeField, Family.opcode]

theorem brn (o : BitVec 9): Statement (.brn o) := by
  intro _
  refine Form.has_of_and rfl (word_eq_of_bits fun i hi => ?_)
  interval_cases i <;> simp [Instr.form, Form.row, encode, placeBranch, placeField, Family.opcode]

theorem brnp (o : BitVec 9): Statement (.brnp o) := by
  intro _
  refine Form.has_of_and rfl (word_eq_of_bits fun i hi => ?_)
  interval_cases i <;> simp [Instr.form, Form.row, encode, placeBranch, placeField, Family.opcode]

theorem brnz (o : BitVec 9): Statement (.brnz o) := by
  intro _
  refine Form.has_of_and rfl (word_eq_of_bits fun i hi => ?_)
  interval_cases i <;> simp [Instr.form, Form.row, encode, placeBranch, placeField, Family.opcode]

theorem brnzp (o : BitVec 9): Statement (.brnzp o) := by
  intro _
  refine Form.has_of_and rfl (word_eq_of_bits fun i hi => ?_)
  interval_cases i <;> simp [Instr.form, Form.row, encode, placeBranch, placeField, Family.opcode]

theorem addReg (rd rs rt : RegIx): Statement (.addReg rd rs rt) := by
  intro _
  refine Form.has_of_and rfl (word_eq_of_bits fun i hi => ?_)
  interval_cases i <;> simp [Instr.form, Form.row, encode, placeRegs, placeField, Family.opcode]

theorem addImm (rd rs : RegIx) (imm : BitVec 5): Statement (.addImm rd rs imm) := by
  intro _
  refine Form.has_of_and rfl (word_eq_of_bits fun i hi => ?_)
  interval_cases i <;> simp [Instr.form, Form.row, encode, placeRegs, placeField, Family.opcode]

theorem ldb (rd rb : RegIx) (o : BitVec 6): Statement (.ldb rd rb o) := by
  intro _
  refine Form.has_of_and rfl (word_eq_of_bits fun i hi => ?_)
  interval_cases i <;> simp [Instr.form, Form.row, encode, placeRegs, placeField, Family.opcode]

theorem stb (rs rb : RegIx) (o : BitVec 6): Statement (.stb rs rb o) := by
  intro _
  refine Form.has_of_and rfl (word_eq_of_bits fun i hi => ?_)
  interval_cases i <;> simp [Instr.form, Form.row, encode, placeRegs, placeField, Family.opcode]

theorem jsrr (rb : RegIx): Statement (.jsrr rb) := by
  intro _
  refine Form.has_of_and rfl (word_eq_of_bits fun i hi => ?_)
  interval_cases i <;> simp [Instr.form, Form.row, encode, placeRegs, placeField, Family.opcode]

theorem jsr (o : BitVec 11): Statement (.jsr o) := by
  intro _
  refine Form.has_of_and rfl (word_eq_of_bits fun i hi => ?_)
  interval_cases i <;> simp [Instr.form, Form.row, encode, placeField, Family.opcode]

theorem andReg (rd rs rt : RegIx): Statement (.andReg rd rs rt) := by
  intro _
  refine Form.has_of_and rfl (word_eq_of_bits fun i hi => ?_)
  interval_cases i <;> simp [Instr.form, Form.row, encode, placeRegs, placeField, Family.opcode]

theorem andImm (rd rs : RegIx) (imm : BitVec 5): Statement (.andImm rd rs imm) := by
  intro _
  refine Form.has_of_and rfl (word_eq_of_bits fun i hi => ?_)
  interval_cases i <;> simp [Instr.form, Form.row, encode, placeRegs, placeField, Family.opcode]

theorem ldr (rd rb : RegIx) (o : BitVec 6): Statement (.ldr rd rb o) := by
  intro _
  refine Form.has_of_and rfl (word_eq_of_bits fun i hi => ?_)
  interval_cases i <;> simp [Instr.form, Form.row, encode, placeRegs, placeField, Family.opcode]

theorem str (rs rb : RegIx) (o : BitVec 6): Statement (.str rs rb o) := by
  intro _
  refine Form.has_of_and rfl (word_eq_of_bits fun i hi => ?_)
  interval_cases i <;> simp [Instr.form, Form.row, encode, placeRegs, placeField, Family.opcode]

theorem rti : Statement (.rti) := by
  intro _
  refine Form.has_of_and rfl (word_eq_of_bits fun i hi => ?_)
  interval_cases i <;> simp [Instr.form, Form.row, encode, placeRegs, placeField, Family.opcode]

theorem notReg (rd rs : RegIx): Statement (.notReg rd rs) := by
  intro _
  refine Form.has_of_and rfl (word_eq_of_bits fun i hi => ?_)
  interval_cases i <;> simp [Instr.form, Form.row, encode, placeRegs, placeField, Family.opcode]

theorem ldi (rd rb : RegIx) (o : BitVec 6): Statement (.ldi rd rb o) := by
  intro _
  refine Form.has_of_and rfl (word_eq_of_bits fun i hi => ?_)
  interval_cases i <;> simp [Instr.form, Form.row, encode, placeRegs, placeField, Family.opcode]

theorem sti (rs rb : RegIx) (o : BitVec 6): Statement (.sti rs rb o) := by
  intro _
  refine Form.has_of_and rfl (word_eq_of_bits fun i hi => ?_)
  interval_cases i <;> simp [Instr.form, Form.row, encode, placeRegs, placeField, Family.opcode]

theorem jmp (rb : RegIx) : Statement (.jmp rb) := by
  intro hwf
  have hb : registerField (encode (.jmp rb)) 6 = rb := by
    refine BitVec.eq_of_getLsbD_eq fun i hi => ?_
    interval_cases i <;> simp [registerField, encode, placeRegs, placeField, Family.opcode]
  have hm : encode (.jmp rb) &&& 0xF000#16 = 0xC000#16 := by
    refine word_eq_of_bits fun i hi => ?_
    interval_cases i <;> simp [encode, placeRegs, placeField, Family.opcode]
  have h7 : rb ≠ 7#3 := by simpa [Instr.wellFormed] using hwf
  simp [Instr.form, Form.has, Form.row, hb, hm, h7]

theorem ret : Statement (.ret) := by
  intro _
  refine Form.has_of_and rfl (word_eq_of_bits fun i hi => ?_)
  interval_cases i <;> simp [Instr.form, Form.row, encode, placeRegs, placeField, Family.opcode]

theorem lshf (rd rs : RegIx) (imm : BitVec 4): Statement (.lshf rd rs imm) := by
  intro _
  refine Form.has_of_and rfl (word_eq_of_bits fun i hi => ?_)
  interval_cases i <;> simp [Instr.form, Form.row, encode, placeRegs, placeField, Family.opcode]

theorem rshfl (rd rs : RegIx) (imm : BitVec 4): Statement (.rshfl rd rs imm) := by
  intro _
  refine Form.has_of_and rfl (word_eq_of_bits fun i hi => ?_)
  interval_cases i <;> simp [Instr.form, Form.row, encode, placeRegs, placeField, Family.opcode]

theorem rshfa (rd rs : RegIx) (imm : BitVec 4): Statement (.rshfa rd rs imm) := by
  intro _
  refine Form.has_of_and rfl (word_eq_of_bits fun i hi => ?_)
  interval_cases i <;> simp [Instr.form, Form.row, encode, placeRegs, placeField, Family.opcode]

theorem lea (rd : RegIx) (o : BitVec 9): Statement (.lea rd o) := by
  intro _
  refine Form.has_of_and rfl (word_eq_of_bits fun i hi => ?_)
  interval_cases i <;> simp [Instr.form, Form.row, encode, placeField, Family.opcode]

theorem trap (v : BitVec 8): Statement (.trap v) := by
  intro _
  refine Form.has_of_and rfl (word_eq_of_bits fun i hi => ?_)
  interval_cases i <;> simp [Instr.form, Form.row, encode, placeField, Family.opcode]

end Sys2Proof.Laws.TableRow
end

