-- ==== Sys2Proof/Laws/Step.lean ====
section
/-! SUPPORT. What an instruction and what a step can do, said once each. -/

namespace Sys2Proof.Machine

/-- The shared transaction answers a next state: the line started, or the dispatcher's error raised (40_datapath.md R66). -/
theorem transact_eq (f : Family) (line : List Byte) (s : State) :
    transact f line s =
      .next (s.start (if f.opcode ∈ s.build.undefinedOpcodes then .error .undefinedOpcode else .line line)) := by
  unfold transact dispatch
  split <;> split_ifs at * <;> simp_all

/-- Every instruction answers a next state: the current lane with one more transaction in flight. -/
theorem exec_starts (i : Instr) (s : State) : ∃ r, exec i s = .next (s.start r) := by
  cases i <;> exact ⟨_, transact_eq _ _ _⟩

/-- A word's turn: the word presented, then, unless reset is asserted, its instruction; then the end of the turn. -/
theorem wordTurn_cases (w : Word) (rest : List MediumItem) (s : State) :
    (s.resetLine = true ∧ wordTurn w rest s = .next (s.presentWord w rest).endSlot) ∨
    (s.resetLine = false ∧ ∃ r, exec (decode w) (s.presentWord w rest) = .next ((s.presentWord w rest).start r) ∧
      wordTurn w rest s = .next ((s.presentWord w rest).start r).endSlot) := by
  unfold wordTurn
  cases s.resetLine with
  | true => exact .inl ⟨rfl, rfl⟩
  | false =>
    obtain ⟨r, h⟩ := exec_starts (decode w) (s.presentWord w rest)
    exact .inr ⟨rfl, r, h, by simp [h, endSlotAfter]⟩

/-- A step: the final fault, a word's turn, the end of the reads, or a turn of waiting. -/
theorem step_cases (s : State) :
    (∃ k, s.finalStatus = some (.fatal k) ∧ step s = .fault k.toFault) ∨
    ((∀ k, s.finalStatus ≠ some (.fatal k)) ∧
      ((∃ w rest, s.nextEvent = some (.word w, rest) ∧ step s = wordTurn w rest s) ∨
       (∃ e f rest, e.terminal = some f ∧ s.nextEvent = some (e, rest) ∧
          step s = .next (s.endReads f rest).endSlot) ∨
       (s.nextEvent = none ∧ step s = .next s.waitTurn.endSlot))) := by
  have turn : (∃ w rest, s.nextEvent = some (.word w, rest) ∧ laneTurn s = wordTurn w rest s) ∨
      (∃ e f rest, e.terminal = some f ∧ s.nextEvent = some (e, rest) ∧
        laneTurn s = .next (s.endReads f rest).endSlot) ∨
      (s.nextEvent = none ∧ laneTurn s = .next s.waitTurn.endSlot) := by
    unfold laneTurn
    split
    · exact .inl ⟨_, _, ‹_›, rfl⟩
    · exact .inr (.inl ⟨_, _, _, rfl, ‹_›, rfl⟩)
    · exact .inr (.inl ⟨_, _, _, rfl, ‹_›, rfl⟩)
    · exact .inr (.inl ⟨_, _, _, rfl, ‹_›, rfl⟩)
    · exact .inr (.inr ⟨‹_›, rfl⟩)
  unfold step slotStep
  split
  · exact .inl ⟨_, ‹_›, rfl⟩
  · exact .inr ⟨by simp [*], turn⟩
  · exact .inr ⟨by simp [*], turn⟩

end Sys2Proof.Machine
end

