-- ==== Sys2Proof/Tests/Slice0.lean ====
section
/-! SUPPORT. The model's own tests, each on one small state or one word; expected results are the spec's (30_encoding.md R52, the examples of R81 to R103,
95_test_vectors.md), never the model's. Then, for each statement with hypotheses, a witness that meets them together. -/

namespace Sys2Proof.Machine.Tests

/-! ## Helpers -/

/-- A build with everything as this hardware takes it, but the latency and the number of lanes given. -/
def plain (latency laneCount : Nat) (h : 1 ≤ laneCount := by decide) : Build :=
  { latency := latency, laneCount := laneCount, lanes_pos := h, undefinedOpcodes := [], fieldConvention := .bias, hexUpper := true, firstByteIsHigh := true }

/-- A build as `plain 0 1` that rejects opcode 0xA (95_test_vectors.md, parameter variants). -/
def rejectsA : Build := { plain 0 1 with undefinedOpcodes := [0xA] }

/-- A build with the first byte of a word on the medium. -/
def atWord (b : Build) (w : Word) : State := (State.afterReset b).loadWord w

/-- The state a step answers, if it answers one. -/
def nextState : Host.Outcome State Fault Refusal → Option State
  | .next t => some t
  | .fault _ => none
  | .refused _ => none

/-- The outcome is a next state. -/
def isNext (o : Host.Outcome State Fault Refusal) : Bool := (nextState o).isSome

theorem isNext_exists {o : Host.Outcome State Fault Refusal} (h : isNext o = true) : ∃ t, o = .next t := by
  cases o with
  | next t => exact ⟨t, rfl⟩
  | fault r => exact absurd h (by simp [isNext, nextState])
  | refused r => exact absurd h (by simp [isNext, nextState])

/-- The lines emitted by one step on a word, in a build with one lane and no latency. -/
def lineOf (b : Build) (w : Word) : Option (List (List Byte)) := (nextState (step (atWord b w))).map State.emitted

/-- The output ports after one step on a word: valid, status, length. -/
def portOf (b : Build) (w : Word) : Option (List (Bool × BitVec 2 × BitVec 5)) :=
  (nextState (step (atWord b w))).map fun t => t.lanes.map fun l => (l.outValid, l.outStatus, l.outLen)

/-- The one cause that every `IO_CAUSE` has. -/
def someCause : IoCause := ⟨0, .inl rfl⟩

/-- A medium of bytes. -/
def bytes (l : List Byte) : List MediumItem := l.map MediumItem.byte

/-! ## Well-formedness and decoding -/

theorem test_jmp_base7_is_ill_formed : (Instr.jmp 7).wellFormed = false := by decide

theorem test_jmp_base6_is_well_formed : (Instr.jmp 6).wellFormed = true := by decide

theorem test_decode_br : decode 0b0000000000000100 = .br 4 := by decide

theorem test_decode_brp : decode 0b0000001011111110 = .brp 254 := by decide

theorem test_decode_brz : decode 0b0000010100000000 = .brz 256 := by decide

theorem test_decode_brzp : decode 0b0000011100000000 = .brzp 256 := by decide

theorem test_decode_brn : decode 0b0000100100000000 = .brn 256 := by decide

theorem test_decode_brnp : decode 0b0000101111111111 = .brnp 511 := by decide

theorem test_decode_brnz : decode 0b0000110100000000 = .brnz 256 := by decide

theorem test_decode_brnzp : decode 0b0000111011111111 = .brnzp 255 := by decide

theorem test_decode_addReg : decode 0b0001001010011011 = .addReg 1 2 3 := by decide

theorem test_decode_addImm : decode 0b0001011010100000 = .addImm 3 2 0 := by decide

theorem test_decode_ldb : decode 0b0010001110111111 = .ldb 1 6 63 := by decide

theorem test_decode_stb : decode 0b0011010001100001 = .stb 2 1 33 := by decide

theorem test_decode_jsrr : decode 0b0100011111111111 = .jsrr 7 := by decide

theorem test_decode_jsr : decode 0b0100101111111111 = .jsr 1023 := by decide

theorem test_decode_andReg : decode 0b0101001010000011 = .andReg 1 2 3 := by decide

theorem test_decode_andImm : decode 0b0101101010111111 = .andImm 5 2 31 := by decide

theorem test_decode_ldr : decode 0b0110011001011111 = .ldr 3 1 31 := by decide

theorem test_decode_str : decode 0b0111100110111111 = .str 4 6 63 := by decide

theorem test_decode_rti : decode 0b1000101010111100 = .rti := by decide

theorem test_decode_notReg : decode 0b1001101011000000 = .notReg 5 3 := by decide

theorem test_decode_ldi : decode 0b1010100001000000 = .ldi 4 1 0 := by decide

theorem test_decode_sti : decode 0b1011000111100001 = .sti 0 7 33 := by decide

theorem test_decode_jmp : decode 0b1100111000111111 = .jmp 0 := by decide

theorem test_decode_ret : decode 0b1100100111000000 = .ret := by decide

theorem test_decode_lshf : decode 0b1101000000101000 = .lshf 0 0 8 := by decide

theorem test_decode_rshfl : decode 0b1101001000011111 = .rshfl 1 0 15 := by decide

theorem test_decode_rshfa : decode 0b1101001011110111 = .rshfa 1 3 7 := by decide

theorem test_decode_lea : decode 0b1110000111000000 = .lea 0 448 := by decide

theorem test_decode_trap : decode 0b1111111100100101 = .trap 0x25 := by decide

theorem test_decodeTableWord : decodeTableWord 16 0x1283 = some (.addReg 1 2 3) := by decide

theorem test_decodeBytes_truncated : decodeBytes true [0x56] = .error .truncatedWord := rfl

theorem test_decodeBytes_none : decodeBytes true [] = .error .noBytes := rfl

theorem test_encode_addReg : encode (.addReg 1 2 3) = 0x1283 := by decide

theorem test_encode_ret : encode .ret = 0xC1C0 := by decide

/-! ## One step on one word: the example of each form's rule -/

theorem test_step_br : lineOf (plain 0 1) 0x0004 = some [ascii "BR #-252 ;\n"] := by decide

theorem test_step_brp : lineOf (plain 0 1) 0x02FE = some [ascii "BRp #-2 ;\n"] := by decide

theorem test_step_brz : lineOf (plain 0 1) 0x0500 = some [ascii "BRz #0 ;\n"] := by decide

theorem test_step_brzp : lineOf (plain 0 1) 0x0700 = some [ascii "BRzp #0 ;\n"] := by decide

theorem test_step_brn : lineOf (plain 0 1) 0x0900 = some [ascii "BRn #0 ;\n"] := by decide

theorem test_step_brnp : lineOf (plain 0 1) 0x0BFF = some [ascii "BRnp #255 ;\n"] := by decide

theorem test_step_brnz : lineOf (plain 0 1) 0x0D00 = some [ascii "BRnz #0 ;\n"] := by decide

theorem test_step_brnzp : lineOf (plain 0 1) 0x0EFF = some [ascii "BRnzp #-1 ;\n"] := by decide

theorem test_step_addReg : lineOf (plain 0 1) 0x129B = some [ascii "ADD R1, R2, R3 ;\n"] := by decide

theorem test_step_addImm : lineOf (plain 0 1) 0x16A0 = some [ascii "ADD R3, R2, #-16 ;\n"] := by decide

theorem test_step_ldb : lineOf (plain 0 1) 0x23BF = some [ascii "LDB R1, R6, #31 ;\n"] := by decide

theorem test_step_stb : lineOf (plain 0 1) 0x3000 = some [ascii "STB R0, R0, #-32 ;\n"] := by decide

theorem test_step_jsrr : lineOf (plain 0 1) 0x41C0 = some [ascii "JSRR R7 ;\n"] := by decide

theorem test_step_jsr : lineOf (plain 0 1) 0x4800 = some [ascii "JSR #-1024 ;\n"] := by decide

theorem test_step_andReg : lineOf (plain 0 1) 0x5283 = some [ascii "AND R1, R2, R3 ;\n"] := by decide

theorem test_step_andImm : lineOf (plain 0 1) 0x5ABF = some [ascii "AND R5, R2, #15 ;\n"] := by decide

theorem test_step_ldr : lineOf (plain 0 1) 0x6000 = some [ascii "LDR R0, R0, #-32 ;\n"] := by decide

theorem test_step_str : lineOf (plain 0 1) 0x7FFF = some [ascii "STR R7, R7, #31 ;\n"] := by decide

theorem test_step_rti : lineOf (plain 0 1) 0x8000 = some [ascii "RTI ;\n"] := by decide

theorem test_step_notReg : lineOf (plain 0 1) 0x9FFF = some [ascii "NOT R7, R7 ;\n"] := by decide

theorem test_step_ldi : lineOf (plain 0 1) 0xA4A0 = some [ascii "LDI R2, R2, #0 ;\n"] := by decide

theorem test_step_sti : lineOf (plain 0 1) 0xB1E1 = some [ascii "STI R0, R7, #1 ;\n"] := by decide

theorem test_step_jmp : lineOf (plain 0 1) 0xC080 = some [ascii "JMP R2 ;\n"] := by decide

theorem test_step_ret : lineOf (plain 0 1) 0xC1C0 = some [ascii "RET\n"] := by decide

theorem test_step_lshf : lineOf (plain 0 1) 0xD008 = some [ascii "LSHF R0, R0, #0\n"] := by decide

theorem test_step_rshfl : lineOf (plain 0 1) 0xD21F = some [ascii "RSHFL R1, R0, #7\n"] := by decide

theorem test_step_rshfa : lineOf (plain 0 1) 0xD2F7 = some [ascii "RSHFA R1, R3, #-1\n"] := by decide

theorem test_step_lea : lineOf (plain 0 1) 0xE3FF = some [ascii "LEA R1, #255 ;\n"] := by decide

theorem test_step_trap : lineOf (plain 0 1) 0xF0AB = some [ascii "TRAP 0xAB ;\n"] := by decide

theorem test_step_trap_named : lineOf (plain 0 1) 0xFF25 = some [ascii "TRAP 0x25 ; HALT\n"] := by decide

/-! ## Parameter variants, errors, reads, latency, lanes and reset -/

theorem test_rejected_opcode_has_no_line : lineOf rejectsA 0xA000 = some [] := by decide

theorem test_rejected_opcode_port : portOf rejectsA 0xA000 = some [(true, 1, 0)] := by decide

theorem test_other_opcode_of_rejecting_build : lineOf rejectsA 0xB000 = some [ascii "STI R0, R0, #-32 ;\n"] := by decide

theorem test_hex_lower : lineOf { plain 0 1 with hexUpper := false } 0xF0AB = some [ascii "TRAP 0xab ;\n"] := by decide

theorem test_twos_complement :
    lineOf { plain 0 1 with fieldConvention := .twosComplement } 0x1030 = some [ascii "ADD R0, R0, #-16 ;\n"] := by decide

theorem test_low_byte_first : readAttempt false (bytes [0x12, 0x83]) = some (.word 0x8312, []) := by decide

theorem test_port_of_a_line : portOf (plain 0 1) 0x1FE0 = some [(true, 0, 19)] := by decide

theorem test_port_waits_for_latency : (portOf (plain 1 1) 0x1FE0).map (·.map Prod.fst) = some [false] := by decide

theorem test_second_lane_waits_for_its_turn :
    ((nextState (step (atWord (plain 0 2) 0x1FE0))).map fun t => (t.slot, t.emitted.length)) = some (1, 0) := by decide

theorem test_truncated_ends_the_run :
    ((nextState (step (State.loaded (plain 0 1) [.byte 0x56, .endOfInput]))).map State.finalStatus) =
      some (some (.fatal .truncatedInput)) := by decide

theorem test_failure_after_one_byte_is_io_failure :
    ((nextState (step (State.loaded (plain 0 1) [.byte 0x56, .failure someCause]))).map State.finalStatus) =
      some (some (.fatal (.ioFailure someCause))) := by decide

theorem test_end_of_input_is_clean :
    ((nextState (step (State.loaded (plain 0 1) [.endOfInput]))).map State.finalStatus) = some (some .clean) := by decide

theorem test_fatal_run_faults :
    step { State.afterReset (plain 0 1) with finalStatus := some (.fatal .truncatedInput) } = .fault .fatalTruncatedInput := rfl

theorem test_word_in_reset_cycle_is_dropped :
    ((nextState (step { atWord (plain 0 1) 0x1FE0 with resetLine := true })).map
      fun t => (t.emitted, t.medium, t.resetLine, t.lanes.map Lane.outValid)) = some ([], [], false, [false]) := by decide

theorem test_first_step_after_reset_runs : isNext (step (State.reset.withFetchWord 16 0x1283)) = true := by decide

theorem test_empty_medium_waits : isNext (step State.reset) = true := by decide

/-! ## Witnesses: for each statement with hypotheses, a concrete case that meets them -/

/-- A small idle state the invariant holds of, for every `LATENCY`. -/
theorem witness_Inv (latency : Nat) : (State.afterReset (plain latency 1)).Inv where
  lanes_count := rfl
  slot_lt := Nat.one_pos
  ports := by
    have h : ∀ l ∈ [Lane.afterReset 0], l.PortOk := by decide
    exact h
  queues := by
    intro k l h
    have hl : l ∈ [Lane.afterReset 0] := List.mem_of_getElem? h
    have hq : ∀ l ∈ [Lane.afterReset 0], l.queue = [] := by decide
    simp [Lane.QueueOk, hq l hl]
  emitted := by simp [State.afterReset]
  reads := by simp [State.afterReset]
  clean := by simp [State.afterReset]
  fatal := by simp [State.afterReset]

/-- The same with a word on the medium: the invariant does not read the medium. -/
theorem witness_Inv_atWord (latency : Nat) : (atWord (plain latency 1) 0x1283).Inv := { witness_Inv latency with }

theorem witness_DecodeOfEncodeIsTheInstruction : (Instr.jmp 6).wellFormed = true ∧ (Instr.trap 0xFF).wellFormed = true := by decide

theorem witness_FormIsChosenByItsTests :
    ((0x16A0 : Word).extractLsb 15 12 = 0x1#4 ∧ (0x5000 : Word).extractLsb 15 12 = 0x5#4 ∧
      (0x0BFF : Word).extractLsb 15 12 = 0x0#4 ∧ (0xC1C0 : Word).extractLsb 15 12 = 0xC#4 ∧
      (0x4800 : Word).extractLsb 15 12 = 0x4#4 ∧ (0xD030 : Word).extractLsb 15 12 = 0xD#4) ∧
    ((0x2000 : Word).extractLsb 15 12 = 0x2#4 ∧ (0x3000 : Word).extractLsb 15 12 = 0x3#4 ∧
      (0x6000 : Word).extractLsb 15 12 = 0x6#4 ∧ (0x7FFF : Word).extractLsb 15 12 = 0x7#4 ∧
      (0x8000 : Word).extractLsb 15 12 = 0x8#4 ∧ (0x9FFF : Word).extractLsb 15 12 = 0x9#4 ∧
      (0xA000 : Word).extractLsb 15 12 = 0xA#4 ∧ (0xB000 : Word).extractLsb 15 12 = 0xB#4 ∧
      (0xE000 : Word).extractLsb 15 12 = 0xE#4 ∧ (0xFFFF : Word).extractLsb 15 12 = 0xF#4) := by decide

theorem witness_WordsAreAssembledInByteOrder : (Instr.jmp 0).wellFormed = true := by decide

/-- Width 5 at its landmarks, and the other convention. -/
theorem witness_FieldsAreReadInBiasedEncoding :
    1 ≤ 5 ∧ (plain 0 1).fieldConvention = .bias ∧ (0#5 : BitVec 5) = 0 ∧ (16#5).toNat = 2 ^ (5 - 1) ∧
      31#5 = BitVec.allOnes 5 ∧ { plain 0 1 with fieldConvention := .twosComplement }.fieldConvention = .twosComplement := by decide

/-- The last value below the middle and the first at it, at the least width too. -/
theorem witness_BiasIsTwosComplementWithTopBitInverted :
    (1 ≤ 5 ∧ (15#5).toNat < 2 ^ (5 - 1) ∧ 2 ^ (5 - 1) ≤ (16#5).toNat) ∧ (1 ≤ 1 ∧ (0#1).toNat < 2 ^ (1 - 1) ∧ 2 ^ (1 - 1) ≤ (1#1).toNat) := by
  decide

theorem witness_PrintedNumbersReadBack : (dec 0).head? = some 0x30#8 ∧ (-1 : Int) < 0 ∧ (0 : Int) ≤ 0 := by decide

/-- RET, whose line is the shortest, and RTI, the next shortest. -/
theorem witness_EveryLineIsWhole :
    (∃ t, decodeToResult Build.hardware 0xC1C0 = .line t ∧ t.length < 6) ∧ (∃ t, decodeToResult Build.hardware 0x8000 = .line t) :=
  ⟨⟨ascii "RET\n", by decide, by decide⟩, ⟨ascii "RTI ;\n", by decide⟩⟩

theorem witness_LinesKeepToTheAlphabet :
    Build.hardware.hexUpper = true ∧ ∃ t, decodeToResult Build.hardware 0xF0AB = .line t :=
  ⟨rfl, ascii "TRAP 0xAB ;\n", by decide⟩

/-- A bare form, a form with a semicolon, and TRAP with and without a name. -/
theorem witness_SemicolonIsMissingExactlyOnShiftsAndRet :
    (∃ t, decodeToResult Build.hardware 0xD008 = .line t ∧ (decode 0xD008).form ∈ [Form.lshf, .rshfl, .rshfa, .ret]) ∧
    (∃ t, decodeToResult Build.hardware 0xC080 = .line t ∧ (decode 0xC080).form ∉ [Form.lshf, .rshfl, .rshfa, .ret] ∧
      (decode 0xC080).form ≠ .trap) ∧
    (∃ t, decodeToResult Build.hardware 0xFF25 = .line t ∧ (decode 0xFF25).form ∉ [Form.lshf, .rshfl, .rshfa, .ret] ∧
      (decode 0xFF25).form = .trap ∧ trapName ((0xFF25 : Word).extractLsb 7 0) = some (ascii "HALT")) ∧
    (∃ t, decodeToResult Build.hardware 0xF024 = .line t ∧ (decode 0xF024).form = .trap ∧
      trapName ((0xF024 : Word).extractLsb 7 0) = none) :=
  ⟨⟨ascii "LSHF R0, R0, #0\n", by decide, by decide⟩, ⟨ascii "JMP R2 ;\n", by decide, by decide, by decide⟩,
    ⟨ascii "TRAP 0x25 ; HALT\n", by decide, by decide, by decide, by decide⟩,
    ⟨ascii "TRAP 0x24 ;\n", by decide, by decide, by decide⟩⟩

theorem witness_LineBeginsWithItsFormsMnemonic : ∃ t, decodeToResult Build.hardware 0x0BFF = .line t :=
  ⟨ascii "BRnp #255 ;\n", by decide⟩

/-- The build's hypotheses of the form statements, for every opcode, in a state after reset. -/
theorem witness_form_statements :
    (State.afterReset (plain 0 1)).build.fieldConvention = .bias ∧
    (∀ op : BitVec 4, op ∉ (State.afterReset (plain 0 1)).build.undefinedOpcodes) := by decide

theorem witness_AddRendersItsLine : (0x16A0 : Word) &&& 0xF020 = 0x1020 ∧ (0x1283 : Word) &&& 0xF020 = 0x1000 := by decide

theorem witness_AndRendersItsLine : (0x5ABF : Word) &&& 0xF020 = 0x5020 ∧ (0x5018 : Word) &&& 0xF020 = 0x5000 := by decide

theorem witness_BranchFormsRenderTheirLines :
    (0x01FF : Word) &&& 0xFE00 = 0x0000 ∧ (0x0300 : Word) &&& 0xFE00 = 0x0200 ∧ (0x0500 : Word) &&& 0xFE00 = 0x0400 ∧
    (0x0700 : Word) &&& 0xFE00 = 0x0600 ∧ (0x0900 : Word) &&& 0xFE00 = 0x0800 ∧ (0x0BFF : Word) &&& 0xFE00 = 0x0A00 ∧
    (0x0D00 : Word) &&& 0xFE00 = 0x0C00 ∧ (0x0FFF : Word) &&& 0xFE00 = 0x0E00 := by decide

theorem witness_JumpAndReturnRenderTheirLines :
    (6 : RegIx) ≠ 7 ∧ ((0xC180 : Word) &&& 0xF000 = 0xC000 ∧ (0xC180 : Word).extractLsb 8 6 ≠ 7#3) ∧
    ((0xCFFF : Word) &&& 0xF000 = 0xC000 ∧ (0xCFFF : Word).extractLsb 8 6 = 7#3) ∧ (0xC9C0 : Word) &&& 0xF1C0 = 0xC1C0 := by decide

theorem witness_CallFormsRenderTheirLines : (0x4FFF : Word) &&& 0xF800 = 0x4800 ∧ (0x47FF : Word) &&& 0xF800 = 0x4000 := by decide

theorem witness_LoadFormsRenderTheirLines :
    (0x2FFF : Word) &&& 0xF000 = 0x2000 ∧ (0xA000 : Word) &&& 0xF000 = 0xA000 ∧ (0x6020 : Word) &&& 0xF000 = 0x6000 := by decide

theorem witness_StoreFormsRenderTheirLines :
    (0x3FFF : Word) &&& 0xF000 = 0x3000 ∧ (0xB000 : Word) &&& 0xF000 = 0xB000 ∧ (0x7020 : Word) &&& 0xF000 = 0x7000 := by decide

theorem witness_LeaRendersItsLine : (0xE1C0 : Word) &&& 0xF000 = 0xE000 := by decide

theorem witness_NotAndRtiRenderTheirLines : (0x903F : Word) &&& 0xF000 = 0x9000 ∧ (0x8FFF : Word) &&& 0xF000 = 0x8000 := by decide

theorem witness_ShiftFormsRenderTheirLines :
    (0xD020 : Word) &&& 0xF010 = 0xD000 ∧ (0xD01F : Word) &&& 0xF030 = 0xD010 ∧ (0xDFFF : Word) &&& 0xF030 = 0xD030 := by decide

theorem witness_TrapRendersItsLine :
    trapName 0x25 = some (ascii "HALT") ∧ trapName 0x24 = none ∧ (0xFF25 : Word) &&& 0xF000 = 0xF000 := by decide

theorem witness_TrapNameTableIsClosed : (0x24#8 : BitVec 8) ∉ [0x20#8, 0x21#8, 0x22#8, 0x23#8, 0x25#8] := by decide

theorem witness_NoFieldDecoderRaises :
    (Instr.ldi 0 0 0).form.family.opcode ∉ (State.afterReset (plain 0 1)).build.undefinedOpcodes := by decide

theorem witness_UndefinedOpcodeIsRaisedExactlyForRejectedOpcodes :
    (Instr.ldi 0 0 0).form.family.opcode ∈ (State.afterReset rejectsA).build.undefinedOpcodes := by decide

theorem witness_ExecFollowsTheFourStages :
    dispatch (plain 0 1) (extract 0x1283).opcode = .ok .add := by rfl

theorem witness_DecodeDependsOnWordAndBuildAlone : (State.afterReset (plain 0 1)).build = plain 0 1 := rfl

/-- A next state, with a lane at the current slot and none beside it. -/
theorem witness_ExecChangesOneQueueOnly :
    (∃ t, exec .rti (State.afterReset (plain 0 1)) = .next t) ∧
    (∃ l, (State.afterReset (plain 0 1)).lanes[(State.afterReset (plain 0 1)).slot]? = some l) :=
  ⟨isNext_exists (by decide), Lane.afterReset 0, rfl⟩

theorem witness_StepRunsTheDecodedWord :
    (atWord (plain 0 1) 0x1283).reading = true ∧ (atWord (plain 0 1) 0x1283).resetLine = false ∧
    (atWord (plain 0 1) 0x1283).medium = .byte 0x12 :: .byte 0x83 :: [] ∧
    ∃ l, (atWord (plain 0 1) 0x1283).lanes[(atWord (plain 0 1) 0x1283).slot]? = some l :=
  ⟨by decide, by decide, by decide, Lane.afterReset 0, rfl⟩

/-- Each of the four events, in a state with a lane at the current slot, nothing in flight, and the last slot of the cycle; and one before it. -/
theorem witness_TerminatingEventsEndTheReads :
    (State.loaded (plain 0 1) [.endOfInput]).reading = true ∧
    (State.loaded (plain 0 1) [.endOfInput]).medium = .endOfInput :: [] ∧
    (State.loaded (plain 0 1) [.byte 0x56, .endOfInput]).medium = .byte 0x56 :: .endOfInput :: [] ∧
    (State.loaded (plain 0 1) [.failure someCause]).medium = .failure someCause :: [] ∧
    (State.loaded (plain 0 1) [.byte 0x56, .failure someCause]).medium = .byte 0x56 :: .failure someCause :: [] ∧
    (State.loaded (plain 0 1) [.endOfInput]).lanes[0]?.isSome = true ∧ (State.loaded (plain 0 1) [.endOfInput]).drained = true ∧
    (plain 0 1).laneCount ≤ (State.loaded (plain 0 1) [.endOfInput]).slot + 1 ∧
    (State.loaded (plain 0 2) [.endOfInput]).slot + 1 < (plain 0 2).laneCount := by decide

/-- The end of the reads, and a turn of waiting. -/
theorem witness_TurnWithoutAWordPresentsNothing :
    ((∀ k, (State.loaded (plain 0 1) [.endOfInput]).finalStatus ≠ some (.fatal k)) ∧
      (∀ w rest, (State.loaded (plain 0 1) [.endOfInput]).nextEvent ≠ some (.word w, rest)) ∧
      (State.loaded (plain 0 1) [.endOfInput]).lanes[0]?.isSome = true) ∧
    (∀ w rest, (State.loaded (plain 0 1) [.pause]).nextEvent ≠ some (.word w, rest)) := by
  refine ⟨⟨fun k h => ?_, fun w rest h => ?_, by decide⟩, fun w rest h => ?_⟩
  · exact absurd h (by simp [State.loaded, State.afterReset])
  · have h' : (State.loaded (plain 0 1) [.endOfInput]).nextEvent = some (.endOfInput, []) := by decide
    rw [h'] at h
    exact absurd h (by simp)
  · have h' : (State.loaded (plain 0 1) [.pause]).nextEvent = none := by decide
    rw [h'] at h
    exact absurd h (by simp)

theorem witness_ReadAttemptsYieldTheEventsInOrder :
    readAttempt true (bytes [0x12, 0x83]) = some (.word 0x1283, []) ∧
    (readAttempt true [.byte 0x12, .pause] = none ∧ MediumItem.pause ∈ [MediumItem.byte 0x12, .pause]) ∧
    (readAttempt true (bytes [0x12]) = none ∧ MediumItem.pause ∉ bytes [0x12]) := by decide

theorem witness_StepsFaultExactlyAfterAFatalEnd :
    { State.afterReset (plain 0 1) with finalStatus := some (.fatal .undefinedOpcode) }.finalStatus = some (.fatal .undefinedOpcode) ∧
    step { State.afterReset (plain 0 1) with finalStatus := some (.fatal .undefinedOpcode) } = .fault .fatalUndefinedOpcode :=
  ⟨rfl, rfl⟩

theorem witness_IdleBlockIdles :
    (State.afterReset (plain 0 1)).Inv ∧ (State.afterReset (plain 0 1)).drained = true ∧
    (State.afterReset (plain 0 1)).nextEvent = none ∧ (∀ k, (State.afterReset (plain 0 1)).finalStatus ≠ some (.fatal k)) ∧
    (State.afterReset (plain 0 1)).readsEnded = (State.afterReset (plain 0 1)).finalStatus ∧
    (State.afterReset (plain 0 1)).slot + 1 = (State.afterReset (plain 0 1)).build.laneCount :=
  ⟨witness_Inv 0, by decide, by decide, by intro k h; exact absurd h (by simp [State.afterReset]), by decide, by decide⟩

/-- A step that answers a next state from a state with the invariant, at the end of a cycle. -/
theorem witness_steps_from_Inv :
    (atWord (plain 0 1) 0x1283).Inv ∧ (atWord (plain 0 1) 0x1283).resetLine = false ∧
    ∃ t, step (atWord (plain 0 1) 0x1283) = .next t :=
  ⟨witness_Inv_atWord 0, rfl, isNext_exists (by decide)⟩

/-- Two lanes: the other lane within a cycle, at its end, and at the end of a reset cycle. -/
theorem witness_LanesShareNothing :
    ((∃ t, step (State.afterReset (plain 0 2)) = .next t) ∧ 1 ≠ (State.afterReset (plain 0 2)).slot ∧
      (∃ l, (State.afterReset (plain 0 2)).lanes[1]? = some l) ∧
      (State.afterReset (plain 0 2)).slot + 1 < (State.afterReset (plain 0 2)).build.laneCount) ∧
    ((∃ t, step { State.afterReset (plain 0 2) with slot := 1 } = .next t) ∧ 0 ≠ 1 ∧
      (∃ l, (State.afterReset (plain 0 2)).lanes[0]? = some l) ∧ (plain 0 2).laneCount ≤ 1 + 1) ∧
    (∃ t, step { State.afterReset (plain 0 2) with slot := 1, resetLine := true } = .next t) :=
  ⟨⟨isNext_exists (by decide), by decide, ⟨Lane.afterReset 1, rfl⟩, by decide⟩,
    ⟨isNext_exists (by decide), by decide, ⟨Lane.afterReset 0, rfl⟩, by decide⟩, isNext_exists (by decide)⟩

theorem witness_ResetCycleDiscardsWhatIsInFlight :
    { atWord (plain 0 1) 0x1283 with resetLine := true }.resetLine = true ∧
    (∀ k, { atWord (plain 0 1) 0x1283 with resetLine := true }.finalStatus ≠ some (.fatal k)) ∧
    (plain 0 1).laneCount ≤ { atWord (plain 0 1) 0x1283 with resetLine := true }.slot + 1 ∧
    { atWord (plain 0 2) 0x1283 with resetLine := true }.slot + 1 < (plain 0 2).laneCount :=
  ⟨rfl, by intro k h; exact absurd h (by simp [atWord]), by decide, by decide⟩

theorem witness_PresentedResultReadsBack :
    ResultOk (.line (ascii "RET\n")) ∧ ResultOk (.error .undefinedOpcode) := by decide

theorem witness_LaneIsADelayLine :
    (Lane.afterReset 0).queue = [] ∧ ∀ r, some r ∈ [some (Result.line (ascii "RET\n")), none] → ResultOk r := by
  refine ⟨rfl, fun r hr => ?_⟩
  have : r = .line (ascii "RET\n") := by simpa using hr
  subst this
  decide

/-- A word at the front of the medium, and the run gets as far as its output: in the same cycle with `LATENCY` 0, two cycles on with 2. -/
theorem witness_OutputComesAfterLatencyCycles :
    ((atWord (plain 0 1) 0x1283).Inv ∧ (atWord (plain 0 1) 0x1283).resetLine = false ∧
      (atWord (plain 0 1) 0x1283).nextEvent = some (.word 0x1283, []) ∧
      ∃ t, Host.Core.run Sys2Proof.core ((plain 0 1).laneCount - 0 + (plain 0 1).latency * (plain 0 1).laneCount)
        (atWord (plain 0 1) 0x1283) = .next t) ∧
    ((atWord (plain 2 1) 0x1283).Inv ∧ (atWord (plain 2 1) 0x1283).resetLine = false ∧
      (atWord (plain 2 1) 0x1283).nextEvent = some (.word 0x1283, []) ∧
      ∃ t, Host.Core.run Sys2Proof.core ((plain 2 1).laneCount - 0 + (plain 2 1).latency * (plain 2 1).laneCount)
        (atWord (plain 2 1) 0x1283) = .next t) :=
  ⟨⟨witness_Inv_atWord 0, rfl, by decide, isNext_exists (by decide)⟩, ⟨witness_Inv_atWord 2, rfl, by decide, isNext_exists (by decide)⟩⟩

theorem witness_QueueHoldsAtMostLatency :
    (State.afterReset (plain 0 1)).Inv ∧ Lane.afterReset 0 ∈ (State.afterReset (plain 0 1)).lanes ∧
    (State.afterReset (plain 0 1)).slot = 0 :=
  ⟨witness_Inv 0, by simp [State.afterReset, plain], rfl⟩

/-- A terminating event; the words before it all with lines, and one of them rejected. -/
theorem witness_RunEndsAtTheFirstTerminatingEvent :
    Event.endOfInput.terminal = some .clean ∧
    takeResults [] ([(0xC1C0 : Word)].map (decodeToResult (plain 0 1))) = ([ascii "RET\n"], none) ∧
    takeResults [] ([(0xC1C0 : Word), 0xA000].map (decodeToResult rejectsA)) = ([ascii "RET\n"], some (.fatal .undefinedOpcode)) := by
  decide

theorem witness_MachineFinishesItsRun :
    run (plain 2 1) (eventsOf true (bytes [0xC1, 0xC0] ++ [.endOfInput])) = ([ascii "RET\n"], some .clean) := by decide

/-- A step that answers a next state, and one that faults, each with a cause in the state. -/
theorem witness_CausesAreCarriedAndNeverRead :
    (∃ t, step (State.loaded (plain 0 1) [.failure someCause]) = .next t) ∧
    step { State.afterReset (plain 0 1) with finalStatus := some (.fatal (.ioFailure someCause)) } = .fault (.fatalIoFailure someCause) :=
  ⟨isNext_exists (by decide), rfl⟩

theorem witness_UnspecifiedValuesCannotBeSeen :
    State.SameReadable (State.afterReset (plain 0 1))
      { State.afterReset (plain 0 1) with lanes := [(Lane.afterReset 0).presentNothing 9], drawn := 40 } where
  build := rfl
  resetLine := rfl
  medium := rfl
  readsEnded := rfl
  lanes := .cons ⟨rfl, by simp [Lane.afterReset], rfl, rfl, rfl⟩ .nil
  slot := rfl
  emitted := rfl
  finalStatus := rfl

end Sys2Proof.Machine.Tests
end

section
/-! Execution against the datapath of 40_datapath.md R63: an instruction that the form selection yields starts the line that its family decoder
writes from the same fields, so the decode of a word is a function of the word and the build (10_state.md R22). -/

namespace Sys2Proof.Machine

/-- The eight BR forms are one transaction, whose line takes the condition bits as they are (42_control.md R85). -/
theorem exec_branchForm (n z p : Bool) (o : BitVec 9) (s : State) :
    exec (branchForm n z p o) s = transact .br (lineBr n z p (correctedValue s.build o)) s := by
  cases n <;> cases z <;> cases p <;> rfl

/-- The selected form's transaction is its family's, with the family decoder's line (40_datapath.md R63). The form selection and the family decoder
make the same tests on the fields, so the cases are the families and the tests inside ADD, JSR, AND, JMP and SHF. -/
theorem exec_selectForm (F : Fields) (s : State) :
    exec (selectForm F) s =
      transact (familyOf F.opcode) (familyDecoder s.build (familyOf F.opcode) F (correct s.build F)) s := by
  unfold selectForm familyDecoder
  cases familyOf F.opcode with
  | br => exact exec_branchForm F.b11 F.z F.p F.raw9 s
  | add => cases F.b5 <;> rfl
  | jsr => cases F.b11 <;> rfl
  | and => cases F.b5 <;> rfl
  | jmp => dsimp only; split_ifs <;> rfl
  | shf => cases F.b4 <;> cases F.b5 <;> rfl
  | ldb | stb | ldr | str | rti | not | ldi | sti | lea | trap => rfl

/-- The dispatcher's two answers in a decode: the error for a rejected opcode, the family decoder's line otherwise (40_datapath.md R66). -/
theorem decodeToResult_eq (b : Build) (w : Word) :
    decodeToResult b w =
      if (extract w).opcode ∈ b.undefinedOpcodes then .error .undefinedOpcode
      else .line (familyDecoder b (familyOf (extract w).opcode) (extract w) (correct b (extract w))) := by
  split_ifs with rejected <;> simp [decodeToResult, dispatch, rejected]

/-- The instruction a word decodes to starts the datapath's result for that word, in every state (40_datapath.md R63). -/
theorem exec_decode (w : Word) (s : State) :
    exec (decode w) s = .next (s.start (decodeToResult s.build w)) := by
  rw [decode, exec_selectForm, transact_eq, opcode_familyOf, decodeToResult_eq]

/-- Settles O32: the one result is `decodeToResult b w`, which no part of the state but its build enters. -/
theorem decodeDependsOnWordAndBuildAlone : Obligations.DecodeDependsOnWordAndBuildAlone := by
  intro b w
  refine ⟨decodeToResult b w, fun s hs => ?_⟩
  rw [← hs]
  exact exec_decode w s

end Sys2Proof.Machine
end

section
/-! The frame of an instruction (20_memory.md R35): the transaction it starts is one more entry in one lane's queue. -/

namespace Sys2Proof.Machine

/-- Starting a transaction touches no lane but the one whose turn it is. -/
theorem State.start_otherLane (r : Result) (s : State) {k : Nat} (hk : k ≠ s.slot) : (s.start r).lanes[k]? = s.lanes[k]? := by
  rw [State.start_lanes, List.getElem?_modify_ne _ _ hk.symm]

/-- The lane whose turn it is accepts the transaction, due in the build's `LATENCY` cycles (10_state.md R20). -/
theorem State.start_currentLane (r : Result) {s : State} {l : Lane} (hl : s.lanes[s.slot]? = some l) :
    (s.start r).lanes[s.slot]? = some (l.accept s.build.latency r) := by
  rw [State.start_lanes, List.getElem?_modify_eq, hl]
  rfl

/-- Settles O33: every instruction starts one transaction (`exec_starts`), and starting one is all it does to the state. -/
theorem execChangesOneQueueOnly : Obligations.ExecChangesOneQueueOnly := by
  intro i s t answers
  obtain ⟨r, starts⟩ := exec_starts i s
  obtain rfl : s.start r = t := by simpa [starts] using answers
  have laneCount : (s.start r).lanes.length = s.lanes.length := by simp
  refine ⟨rfl, rfl, rfl, rfl, rfl, rfl, rfl, rfl, laneCount, fun k hk => State.start_otherLane r s hk, fun l hl => ?_⟩
  exact ⟨r, l.accept s.build.latency r, State.start_currentLane r hl, rfl, rfl, rfl, rfl, rfl, rfl, rfl⟩

end Sys2Proof.Machine
end

section
/-! The opcode map and the choice of the form inside a family (30_encoding.md R49, R51). -/

namespace Sys2Proof

/-- The extractor's opcode is the word's bits 15 to 12 (30_encoding.md R40). -/
theorem extract_opcode (w : Word) : (extract w).opcode = w.extractLsb 15 12 := rfl

/-- The tests of 30_encoding.md R51 on the extracted fields, family by family. -/
def Family.formByTests (F : Fields) : Family → Form
  | .br =>
    if F.b11 then (if F.z then (if F.p then .brnzp else .brnz) else (if F.p then .brnp else .brn))
    else (if F.z then (if F.p then .brzp else .brz) else (if F.p then .brp else .br))
  | .add => if F.b5 then .addImm else .addReg
  | .and => if F.b5 then .andImm else .andReg
  | .jmp => if F.rB = 7#3 then .ret else .jmp
  | .jsr => if F.b11 then .jsr else .jsrr
  | .shf => if F.b4 then (if F.b5 then .rshfa else .rshfl) else .lshf
  | .ldb => .ldb | .stb => .stb | .ldr => .ldr | .str => .str
  | .rti => .rti | .not => .notReg | .ldi => .ldi | .sti => .sti | .lea => .lea | .trap => .trap

/-- BR's form by its condition bits, whatever the offset (42_control.md R85). -/
theorem form_branchForm (n z p : Bool) (o : BitVec 9) :
    (branchForm n z p o).form =
      if n then (if z then (if p then .brnzp else .brnz) else (if p then .brnp else .brn))
      else (if z then (if p then .brzp else .brz) else (if p then .brp else .br)) := by
  cases n <;> cases z <;> cases p <;> rfl

/-- The form selected is the one that the tests of the opcode's family choose: the operands a form keeps do not enter it. -/
theorem form_selectForm (F : Fields) : (selectForm F).form = (familyOf F.opcode).formByTests F := by
  unfold selectForm
  cases familyOf F.opcode with
  | br => exact form_branchForm F.b11 F.z F.p F.raw9
  | add | and => exact apply_ite Instr.form (F.b5 = true) _ _
  | jsr => exact apply_ite Instr.form (F.b11 = true) _ _
  | jmp => exact apply_ite Instr.form (F.rB = 7#3) _ _
  | shf => dsimp only [Family.formByTests]; split_ifs <;> rfl
  | ldb | stb | ldr | str | rti | not | ldi | sti | lea | trap => rfl

/-- A word with a family's opcode has the form that the family's tests choose. -/
theorem form_decode_of_opcode (f : Family) {w : Word} (opcode : w.extractLsb 15 12 = f.opcode) :
    (decode w).form = f.formByTests (extract w) := by
  rw [decode, form_selectForm, extract_opcode, opcode, familyOf_opcode]

/-- Settles O6: each clause is `form_decode_of_opcode` at the family its opcode names, and the fields that the family tests are the clause's bits. -/
theorem formIsChosenByItsTests : Obligations.FormIsChosenByItsTests := fun _ =>
  ⟨form_decode_of_opcode .add, form_decode_of_opcode .and, form_decode_of_opcode .br, form_decode_of_opcode .jmp,
    form_decode_of_opcode .jsr, form_decode_of_opcode .shf, form_decode_of_opcode .ldb, form_decode_of_opcode .stb,
    form_decode_of_opcode .ldr, form_decode_of_opcode .str, form_decode_of_opcode .rti, form_decode_of_opcode .not,
    form_decode_of_opcode .ldi, form_decode_of_opcode .sti, form_decode_of_opcode .lea, form_decode_of_opcode .trap⟩

/-- Settles O5: the table is sixteen closed facts, and the form selection keeps to the opcode's family (`family_selectForm`). -/
theorem opcodeMapIsTheTable : Obligations.OpcodeMapIsTheTable := by
  refine ⟨by decide, fun w => ?_⟩
  rw [decode, family_selectForm, extract_opcode]

end Sys2Proof
end

section
/-! The four stages of `Decode(w)` (40_datapath.md R63) against the instructions' meanings. -/

namespace Sys2Proof.Machine

/-- Once the dispatcher has given a word its family, the datapath's result is that family decoder's line (40_datapath.md R63, R66). -/
theorem decodeToResult_of_dispatch {b : Build} {w : Word} {fam : Family} (dispatched : dispatch b (extract w).opcode = .ok fam) :
    decodeToResult b w = .line (familyDecoder b fam (extract w) (correct b (extract w))) := by
  simp only [decodeToResult, dispatched]

/-- Settles O31: the first clause is `exec_decode`, which compares each family's instructions with its decoder; the second reads the datapath
behind its dispatcher. -/
theorem execFollowsTheFourStages : Obligations.ExecFollowsTheFourStages :=
  ⟨fun s w => exec_decode w s, fun _ _ _ => decodeToResult_of_dispatch⟩

end Sys2Proof.Machine
end

section
/-! Words of a table row (30_encoding.md R52), and the transaction of an instruction with a corrected field (40_datapath.md R63, R65). -/

namespace Sys2Proof

/-- A word of a row agrees with the row's match on every slice that the mask covers. -/
theorem extractLsb_of_row {w mask bits : Word} (row : w &&& mask = bits) {hi lo : Nat}
    (covered : mask.extractLsb hi lo = BitVec.allOnes _) : w.extractLsb hi lo = bits.extractLsb hi lo := by
  rw [← row, BitVec.extractLsb_and, covered, BitVec.and_allOnes]

/-- A word of a row agrees with the row's match on every bit that the mask covers. -/
theorem getLsbD_of_row {w mask bits : Word} (row : w &&& mask = bits) {i : Nat} (covered : mask.getLsbD i = true) :
    w.getLsbD i = bits.getLsbD i := by
  rw [← row, BitVec.getLsbD_and, covered, Bool.and_true]

namespace Machine

/-- An instruction whose opcode the build does not reject starts its line (40_datapath.md R66). -/
theorem transact_of_accepted (f : Family) (line : List Byte) {s : State} (accepted : f.opcode ∉ s.build.undefinedOpcodes) :
    transact f line s = .next (s.start (.line line)) := by
  rw [transact_eq, if_neg accepted]

/-- Under `BIAS` a field of any width is read as its pattern less half its range (30_encoding.md R45). -/
theorem correctedValue_of_bias {b : Build} (bias : b.fieldConvention = .bias) {n : Nat} (raw : BitVec n) :
    correctedValue b raw = (raw.toNat : Int) - 2 ^ (n - 1) := by
  rw [correctedValue, bias, biasValue]

/-- An accepted instruction that prints a corrected field prints the field's biased value, where the convention is `BIAS`. -/
theorem transact_of_accepted_of_bias (f : Family) (line : Int → List Byte) {s : State}
    (accepted : f.opcode ∉ s.build.undefinedOpcodes) (bias : s.build.fieldConvention = .bias) {n : Nat} (raw : BitVec n) :
    transact f (line (correctedValue s.build raw)) s = .next (s.start (.line (line ((raw.toNat : Int) - 2 ^ (n - 1))))) := by
  rw [transact_of_accepted f _ accepted, correctedValue_of_bias bias]

end Machine

end Sys2Proof
end

section
/-! ADD and AND (41_add_and.md R81 to R84). Their rows share the mask 0xF020, which covers the opcode and bit 5, the immediate select. -/

namespace Sys2Proof

/-- Bit 5 chooses the form of a word with ADD's opcode (30_encoding.md R51). -/
theorem decode_of_add {w : Word} (opcode : w.extractLsb 15 12 = Family.add.opcode) :
    decode w = if w.getLsbD 5 then .addImm (w.extractLsb 11 9) (w.extractLsb 8 6) (w.extractLsb 4 0)
      else .addReg (w.extractLsb 11 9) (w.extractLsb 8 6) (w.extractLsb 2 0) := by
  rw [decode, selectForm, extract_opcode, opcode, familyOf_opcode]
  rfl

/-- Bit 5 chooses the form of a word with AND's opcode (30_encoding.md R51). -/
theorem decode_of_and {w : Word} (opcode : w.extractLsb 15 12 = Family.and.opcode) :
    decode w = if w.getLsbD 5 then .andImm (w.extractLsb 11 9) (w.extractLsb 8 6) (w.extractLsb 4 0)
      else .andReg (w.extractLsb 11 9) (w.extractLsb 8 6) (w.extractLsb 2 0) := by
  rw [decode, selectForm, extract_opcode, opcode, familyOf_opcode]
  rfl

/-- A word of one of the four rows has the opcode of the row's match. -/
theorem opcode_of_addAndRow {w bits : Word} (row : w &&& 0xF020 = bits) : w.extractLsb 15 12 = bits.extractLsb 15 12 :=
  extractLsb_of_row row (by decide)

/-- A word of one of the four rows has the immediate select of the row's match. -/
theorem bit5_of_addAndRow {w bits : Word} (row : w &&& 0xF020 = bits) : w.getLsbD 5 = bits.getLsbD 5 :=
  getLsbD_of_row row (by decide)

namespace Machine

/-- The printed `imm5` at its least pattern, its middle and its greatest (41_add_and.md R81, R83). -/
theorem immText_imm5_landmarks :
    immText ((0b00000#5).toNat - 16) = ascii "#-16" ∧ immText ((0b10000#5).toNat - 16) = ascii "#0" ∧
      immText ((0b11111#5).toNat - 16) = ascii "#15" := by
  decide

/-- Settles O17: the two meanings are ADD's transaction on its lines, the two rows are told apart by bit 5, and the examples are evaluated. -/
theorem addRendersItsLine : Obligations.AddRendersItsLine := by
  refine ⟨fun s rd rs raw accepted bias => ?_, fun s rd rs rt accepted => ?_, fun w row => ?_, fun w row => ?_,
    immText_imm5_landmarks, by decide, by decide, by decide⟩
  · exact transact_of_accepted_of_bias .add (lineAddImm rd rs) accepted bias raw
  · exact transact_of_accepted .add (lineAddReg rd rs rt) accepted
  · exact (decode_of_add (opcode_of_addAndRow row)).trans (if_pos (bit5_of_addAndRow row))
  · exact (decode_of_add (opcode_of_addAndRow row)).trans (if_neg (ne_true_of_eq_false (bit5_of_addAndRow row)))

/-- Settles O18: as for ADD, with AND's transaction, lines and rows. -/
theorem andRendersItsLine : Obligations.AndRendersItsLine := by
  refine ⟨fun s rd rs raw accepted bias => ?_, fun s rd rs rt accepted => ?_, fun w row => ?_, fun w row => ?_,
    immText_imm5_landmarks, by decide, by decide, by decide, by decide⟩
  · exact transact_of_accepted_of_bias .and (lineAndImm rd rs) accepted bias raw
  · exact transact_of_accepted .and (lineAndReg rd rs rt) accepted
  · exact (decode_of_and (opcode_of_addAndRow row)).trans (if_pos (bit5_of_addAndRow row))
  · exact (decode_of_and (opcode_of_addAndRow row)).trans (if_neg (ne_true_of_eq_false (bit5_of_addAndRow row)))

end Machine

end Sys2Proof
end

section
/-! BR, JMP, RET, JSR and JSRR (42_control.md R85 to R89). BR's rows share the mask 0xFE00, the opcode and the condition bits; JSR's and JSRR's share
0xF800, the opcode and bit 11; JMP and RET share an opcode and are told apart by the base register. -/

namespace Sys2Proof

/-- The condition bits choose the form of a word with BR's opcode (30_encoding.md R51). -/
theorem decode_of_br {w : Word} (opcode : w.extractLsb 15 12 = Family.br.opcode) :
    decode w = branchForm (w.getLsbD 11) (w.getLsbD 10) (w.getLsbD 9) (w.extractLsb 8 0) := by
  rw [decode, selectForm, extract_opcode, opcode, familyOf_opcode]
  rfl

/-- The base register chooses the form of a word with JMP's opcode (30_encoding.md R51). -/
theorem decode_of_jmp {w : Word} (opcode : w.extractLsb 15 12 = Family.jmp.opcode) :
    decode w = if w.extractLsb 8 6 = 7#3 then .ret else .jmp (w.extractLsb 8 6) := by
  rw [decode, selectForm, extract_opcode, opcode, familyOf_opcode]
  rfl

/-- Bit 11 chooses the form of a word with JSR's opcode (30_encoding.md R51). -/
theorem decode_of_jsr {w : Word} (opcode : w.extractLsb 15 12 = Family.jsr.opcode) :
    decode w = if w.getLsbD 11 then .jsr (w.extractLsb 10 0) else .jsrr (w.extractLsb 8 6) := by
  rw [decode, selectForm, extract_opcode, opcode, familyOf_opcode]
  rfl

/-- A word of one of BR's eight rows decodes to the form of the row's condition bits. -/
theorem decode_of_brRow {w bits : Word} (row : w &&& 0xFE00 = bits) (opcode : bits.extractLsb 15 12 = Family.br.opcode) :
    decode w = branchForm (bits.getLsbD 11) (bits.getLsbD 10) (bits.getLsbD 9) (w.extractLsb 8 0) := by
  have n : w.getLsbD 11 = bits.getLsbD 11 := getLsbD_of_row row (by decide)
  have z : w.getLsbD 10 = bits.getLsbD 10 := getLsbD_of_row row (by decide)
  have p : w.getLsbD 9 = bits.getLsbD 9 := getLsbD_of_row row (by decide)
  rw [decode_of_br ((extractLsb_of_row row (by decide)).trans opcode), n, z, p]

/-- A word of JSR's or JSRR's row decodes to the form of the row's bit 11. -/
theorem decode_of_callRow {w bits : Word} (row : w &&& 0xF800 = bits) (opcode : bits.extractLsb 15 12 = Family.jsr.opcode) :
    decode w = if bits.getLsbD 11 then .jsr (w.extractLsb 10 0) else .jsrr (w.extractLsb 8 6) := by
  have b11 : w.getLsbD 11 = bits.getLsbD 11 := getLsbD_of_row row (by decide)
  rw [decode_of_jsr ((extractLsb_of_row row (by decide)).trans opcode), b11]

namespace Machine

/-- An accepted BR starts the line of its condition letters and its biased offset, whatever its condition bits (42_control.md R85). -/
theorem exec_branchForm_of_accepted_of_bias (n z p : Bool) (raw : BitVec 9) {s : State}
    (accepted : Family.br.opcode ∉ s.build.undefinedOpcodes) (bias : s.build.fieldConvention = .bias) :
    exec (branchForm n z p raw) s = .next (s.start (.line (lineBr n z p ((raw.toNat : Int) - 256)))) := by
  rw [exec_branchForm]
  exact transact_of_accepted_of_bias .br (lineBr n z p) accepted bias raw

/-- Settles O19: the eight forms are `branchForm` at the eight values of the condition bits, in the meanings as in the rows. -/
theorem branchFormsRenderTheirLines : Obligations.BranchFormsRenderTheirLines := by
  refine ⟨fun s raw accepted bias => ?_, fun w => ?_, by decide, by decide⟩
  · have render := fun n z p => exec_branchForm_of_accepted_of_bias n z p raw accepted bias
    exact ⟨render false false false, render false false true, render false true false, render false true true,
      render true false false, render true false true, render true true false, render true true true⟩
  · exact ⟨fun row => decode_of_brRow row rfl, fun row => decode_of_brRow row rfl, fun row => decode_of_brRow row rfl,
      fun row => decode_of_brRow row rfl, fun row => decode_of_brRow row rfl, fun row => decode_of_brRow row rfl,
      fun row => decode_of_brRow row rfl, fun row => decode_of_brRow row rfl⟩

/-- Only JMP's family writes a line whose second byte is `M`. -/
theorem family_of_secondByte_M (b : Build) (fam : Family) (F : Fields) (V : Corrected)
    (second : (familyDecoder b fam F V)[1]? = some 0x4D#8) : fam = .jmp := by
  unfold familyDecoder at second
  cases fam with
  | jmp => rfl
  | add | jsr | and | shf => dsimp only at second; split_ifs at second <;> nomatch second
  | trap => dsimp only [lineTrap] at second; split at second <;> nomatch second
  | br | ldb | stb | ldr | str | rti | not | ldi | sti | lea => nomatch second

/-- JMP's line tells its base register. -/
theorem lineJmp_injective : ∀ r q : RegIx, lineJmp r = lineJmp q → r = q := by decide

/-- No family decoder prints `JMP R7`: JMP's own prints RET's line for base 7 (42_control.md R86, R87). -/
theorem familyDecoder_ne_lineJmp_7 (b : Build) (fam : Family) (F : Fields) (V : Corrected) :
    familyDecoder b fam F V ≠ lineJmp 7 := by
  intro prints
  obtain rfl : fam = .jmp := family_of_secondByte_M b fam F V (by rw [prints]; rfl)
  by_cases base : F.rB = 7#3
  · have ret : lineRet = lineJmp 7 := (if_pos base).symm.trans prints
    exact absurd ret (by decide)
  · have jmp : lineJmp F.rB = lineJmp 7 := (if_neg base).symm.trans prints
    exact base (lineJmp_injective _ _ jmp)

/-- Settles O20: the two meanings are one transaction on two lines, the base register tells the words apart, and `JMP R7` is no decoder's line. -/
theorem jumpAndReturnRenderTheirLines : Obligations.JumpAndReturnRenderTheirLines := by
  refine ⟨fun s rb accepted _ => ?_, fun s accepted => ?_, fun w row => ?_, fun w row => ?_, by decide, by decide, by decide,
    by decide, fun b w => ?_⟩
  · exact transact_of_accepted .jmp (lineJmp rb) accepted
  · exact transact_of_accepted .jmp lineRet accepted
  · have decoded := decode_of_jmp (w := w) (extractLsb_of_row row (by decide))
    exact ⟨fun base => decoded.trans (if_neg base), fun base => decoded.trans (if_pos base)⟩
  · have base : w.extractLsb 8 6 = 7#3 := extractLsb_of_row row (by decide)
    exact (decode_of_jmp (extractLsb_of_row row (by decide))).trans (if_pos base)
  · rw [decodeToResult_eq]
    split_ifs
    · exact Result.noConfusion
    · exact fun prints => familyDecoder_ne_lineJmp_7 b _ _ _ (Result.line.inj prints)

/-- Settles O21: the two meanings are JSR's transaction on its lines, and the two rows are told apart by bit 11. -/
theorem callFormsRenderTheirLines : Obligations.CallFormsRenderTheirLines := by
  refine ⟨fun s raw accepted bias => ?_, fun s rb accepted => ?_, fun w => ⟨fun row => ?_, fun row => ?_⟩,
    by decide, by decide, by decide⟩
  · exact transact_of_accepted_of_bias .jsr lineJsr accepted bias raw
  · exact transact_of_accepted .jsr (lineJsrr rb) accepted
  · exact decode_of_callRow row rfl
  · exact decode_of_callRow row rfl

end Machine

end Sys2Proof
end

section
/-! The families with a single form (30_encoding.md R51). They have no mode bit, so a word of a row with the mask 0xF000, which covers the opcode
alone, decodes by its opcode. -/

namespace Sys2Proof

/-- The instruction of a family with a single form; none for the families that make one of the tests of 30_encoding.md R51. -/
def Family.soleForm (F : Fields) : Family → Option Instr
  | .br | .add | .jsr | .and | .jmp | .shf => none
  | .ldb => some (.ldb F.rA F.rB F.raw6)
  | .stb => some (.stb F.rA F.rB F.raw6)
  | .ldr => some (.ldr F.rA F.rB F.raw6)
  | .str => some (.str F.rA F.rB F.raw6)
  | .rti => some .rti
  | .not => some (.notReg F.rA F.rB)
  | .ldi => some (.ldi F.rA F.rB F.raw6)
  | .sti => some (.sti F.rA F.rB F.raw6)
  | .lea => some (.lea F.rA F.raw9)
  | .trap => some (.trap F.vec8)

/-- The form selection of a family with a single form makes no test. -/
theorem selectForm_of_soleForm {F : Fields} {i : Instr} (sole : (familyOf F.opcode).soleForm F = some i) : selectForm F = i := by
  unfold selectForm
  generalize familyOf F.opcode = f at sole ⊢
  cases f with
  | br | add | jsr | and | jmp | shf => nomatch sole
  | ldb | stb | ldr | str | rti | not | ldi | sti | lea | trap => exact Option.some.inj sole

/-- A word of a row with the mask 0xF000 decodes to the single form of the family that the row's opcode names (30_encoding.md R52). -/
theorem decode_of_opcodeRow (f : Family) {w bits : Word} {i : Instr} (row : w &&& 0xF000 = bits)
    (opcode : bits.extractLsb 15 12 = f.opcode) (sole : f.soleForm (extract w) = some i) : decode w = i := by
  have wordOpcode : w.extractLsb 15 12 = f.opcode := (extractLsb_of_row row (by decide)).trans opcode
  refine selectForm_of_soleForm ?_
  rw [extract_opcode, wordOpcode, familyOf_opcode, sole]

end Sys2Proof
end

section
/-! LDB, LDI, LDR, STB, STI, STR and LEA (43_load_store_lea.md R91 to R97): seven families with a single form each. -/

namespace Sys2Proof.Machine

/-- The printed `offset6` at its least pattern, its middle and its greatest (43_load_store_lea.md R91). -/
theorem immText_offset6_landmarks :
    immText ((0b000000#6).toNat - 32) = ascii "#-32" ∧ immText ((0b100000#6).toNat - 32) = ascii "#0" ∧
      immText ((0b111111#6).toNat - 32) = ascii "#31" := by
  decide

/-- Settles O22: each load's meaning is its family's transaction on the uniform line, and its opcode alone chooses its form. -/
theorem loadFormsRenderTheirLines : Obligations.LoadFormsRenderTheirLines := by
  refine ⟨fun s rd rb raw bias => ⟨fun accepted => ?_, fun accepted => ?_, fun accepted => ?_⟩,
    fun w => ⟨fun row => ?_, fun row => ?_, fun row => ?_⟩, immText_offset6_landmarks, by decide, by decide, by decide⟩
  · exact transact_of_accepted_of_bias .ldb (lineLdb rd rb) accepted bias raw
  · exact transact_of_accepted_of_bias .ldi (lineLdi rd rb) accepted bias raw
  · exact transact_of_accepted_of_bias .ldr (lineLdr rd rb) accepted bias raw
  · exact decode_of_opcodeRow .ldb row rfl rfl
  · exact decode_of_opcodeRow .ldi row rfl rfl
  · exact decode_of_opcodeRow .ldr row rfl rfl

/-- Settles O23: as for the loads, with the stores' families and mnemonics. -/
theorem storeFormsRenderTheirLines : Obligations.StoreFormsRenderTheirLines := by
  refine ⟨fun s rs rb raw bias => ⟨fun accepted => ?_, fun accepted => ?_, fun accepted => ?_⟩,
    fun w => ⟨fun row => ?_, fun row => ?_, fun row => ?_⟩, immText_offset6_landmarks, by decide, by decide, by decide⟩
  · exact transact_of_accepted_of_bias .stb (lineStb rs rb) accepted bias raw
  · exact transact_of_accepted_of_bias .sti (lineSti rs rb) accepted bias raw
  · exact transact_of_accepted_of_bias .str (lineStr rs rb) accepted bias raw
  · exact decode_of_opcodeRow .stb row rfl rfl
  · exact decode_of_opcodeRow .sti row rfl rfl
  · exact decode_of_opcodeRow .str row rfl rfl

/-- Settles O24: LEA's meaning is its transaction on its line, and its single form keeps the nine bits below the destination as the offset. -/
theorem leaRendersItsLine : Obligations.LeaRendersItsLine := by
  refine ⟨fun s rd raw accepted bias => ?_, fun w row => ?_, by decide, by decide⟩
  · exact transact_of_accepted_of_bias .lea (lineLea rd) accepted bias raw
  · exact decode_of_opcodeRow .lea row rfl rfl

end Sys2Proof.Machine
end

section
/-! NOT and RTI (44_not_rti.md R98, R99): two families with a single form each and no field to correct. -/

namespace Sys2Proof.Machine

/-- Settles O25: each meaning is its family's transaction on its line, under either field convention, and its opcode alone chooses its form. -/
theorem notAndRtiRenderTheirLines : Obligations.NotAndRtiRenderTheirLines := by
  refine ⟨fun s rd rs accepted => ?_, fun s accepted => ?_, fun w => ⟨fun row => ?_, fun row => ?_⟩,
    by decide, by decide, by decide, by decide, by decide⟩
  · exact transact_of_accepted .not (lineNot rd rs) accepted
  · exact transact_of_accepted .rti lineRti accepted
  · exact decode_of_opcodeRow .not row rfl rfl
  · exact decode_of_opcodeRow .rti row rfl rfl

end Sys2Proof.Machine
end

section
/-! LSHF, RSHFL and RSHFA (45_shf.md R100 to R102). RSHFL's and RSHFA's rows share the mask 0xF030, the opcode and bits 5 and 4; LSHF's mask 0xF010
leaves out bit 5. -/

namespace Sys2Proof

/-- Bit 4 chooses the shift's direction for a word with SHF's opcode, and bit 5 is read only for a right shift (30_encoding.md R51). -/
theorem decode_of_shf {w : Word} (opcode : w.extractLsb 15 12 = Family.shf.opcode) :
    decode w =
      if w.getLsbD 4 then
        (if w.getLsbD 5 then .rshfa (w.extractLsb 11 9) (w.extractLsb 8 6) (w.extractLsb 3 0)
          else .rshfl (w.extractLsb 11 9) (w.extractLsb 8 6) (w.extractLsb 3 0))
      else .lshf (w.extractLsb 11 9) (w.extractLsb 8 6) (w.extractLsb 3 0) := by
  rw [decode, selectForm, extract_opcode, opcode, familyOf_opcode]
  rfl

/-- A word of LSHF's row decodes to it, whatever its bit 5 (45_shf.md R100). -/
theorem decode_of_leftShiftRow {w : Word} (row : w &&& 0xF010 = 0xD000) :
    decode w = .lshf (w.extractLsb 11 9) (w.extractLsb 8 6) (w.extractLsb 3 0) := by
  have left : w.getLsbD 4 = false := getLsbD_of_row row (by decide)
  rw [decode_of_shf (extractLsb_of_row row (by decide)), if_neg (ne_true_of_eq_false left)]

/-- A word of RSHFL's or RSHFA's row decodes to the form of the row's bit 5. -/
theorem decode_of_rightShiftRow {w bits : Word} (row : w &&& 0xF030 = bits) (opcode : bits.extractLsb 15 12 = Family.shf.opcode)
    (right : bits.getLsbD 4 = true) :
    decode w =
      if bits.getLsbD 5 then .rshfa (w.extractLsb 11 9) (w.extractLsb 8 6) (w.extractLsb 3 0)
      else .rshfl (w.extractLsb 11 9) (w.extractLsb 8 6) (w.extractLsb 3 0) := by
  have b4 : w.getLsbD 4 = bits.getLsbD 4 := getLsbD_of_row row (by decide)
  have b5 : w.getLsbD 5 = bits.getLsbD 5 := getLsbD_of_row row (by decide)
  rw [decode_of_shf ((extractLsb_of_row row (by decide)).trans opcode), if_pos (b4.trans right), b5]

namespace Machine

/-- Settles O26: the three meanings are SHF's transaction on its lines; bit 4 sets LSHF's row apart, and bit 5 RSHFL's from RSHFA's. -/
theorem shiftFormsRenderTheirLines : Obligations.ShiftFormsRenderTheirLines := by
  refine ⟨fun s rd rs raw accepted bias => ⟨?_, ?_, ?_⟩, fun w => ⟨fun row => ?_, fun row => ?_, fun row => ?_⟩,
    by decide, by decide, by decide, by decide, by decide, by decide, by decide⟩
  · exact transact_of_accepted_of_bias .shf (lineLshf rd rs) accepted bias raw
  · exact transact_of_accepted_of_bias .shf (lineRshfl rd rs) accepted bias raw
  · exact transact_of_accepted_of_bias .shf (lineRshfa rd rs) accepted bias raw
  · exact decode_of_leftShiftRow row
  · exact decode_of_rightShiftRow row rfl rfl
  · exact decode_of_rightShiftRow row rfl rfl

end Machine

end Sys2Proof
end

section
/-! TRAP's name table (46_trap.md R104). -/

namespace Sys2Proof.Machine

/-- A vector that is none of the five named ones passes every test of the table (46_trap.md R104). -/
theorem trapName_eq_none_of_notMem {v : BitVec 8} (unnamed : v ∉ [0x20#8, 0x21#8, 0x22#8, 0x23#8, 0x25#8]) : trapName v = none := by
  simp only [List.mem_cons, List.not_mem_nil, or_false, not_or] at unnamed
  obtain ⟨notGetc, notOut, notPuts, notIn, notHalt⟩ := unnamed
  exact (if_neg notGetc).trans <| (if_neg notOut).trans <| (if_neg notPuts).trans <| (if_neg notIn).trans <| if_neg notHalt

/-- Settles O28: each named vector meets its own test first, and every other vector meets none. -/
theorem trapNameTableIsClosed : Obligations.TrapNameTableIsClosed :=
  ⟨rfl, rfl, rfl, rfl, rfl, fun _ => trapName_eq_none_of_notMem⟩

end Sys2Proof.Machine
end

section
/-! Fields taken out of a word and put back into one (30_encoding.md R41 to R44). -/

namespace Sys2Proof

/-- The bits of the field of `width` bits at `offset`. -/
def fieldMask (width offset : Nat) : Word := placeField offset (BitVec.allOnes width)

/-- A field put back at its place is the word with every other bit cleared. -/
theorem placeField_rawField (w : Word) (width offset : Nat) :
    placeField offset (rawField w width offset) = w &&& fieldMask width offset := by
  refine word_eq_of_bits fun i hi => ?_
  rw [BitVec.getLsbD_and, fieldMask, placeField_getLsbD, placeField_getLsbD, rawField_getLsbD, BitVec.getLsbD_allOnes]
  by_cases below : offset ≤ i
  · simp only [Nat.add_sub_cancel' below]
    ac_rfl
  · simp [below]

/-- A single bit put back at its place. -/
theorem placeField_ofBool (w : Word) (i : Nat) : placeField i (BitVec.ofBool (w.getLsbD i)) = w &&& fieldMask 1 i := by
  rw [← placeField_rawField]
  congr 1
  refine BitVec.eq_of_getLsbD_eq fun j hj => ?_
  obtain rfl : j = 0 := by omega
  simp [rawField]

/-- A register field is the raw field of three bits. -/
theorem registerField_eq (w : Word) (offset : Nat) : registerField w offset = rawField w 3 offset := rfl

/-- A field of two words one over the other. -/
@[simp] theorem rawField_or (a b : Word) (width offset : Nat) :
    rawField (a ||| b) width offset = rawField a width offset ||| rawField b width offset :=
  BitVec.extractLsb'_or

/-- The field at the place where a value was put is the value. -/
@[simp] theorem rawField_placeField (offset : Nat) {n : Nat} (v : BitVec n) (fits : offset + n ≤ 16) :
    rawField (placeField offset v) n offset = v := by
  refine BitVec.eq_of_getLsbD_eq fun i hi => ?_
  have inside : offset + i < 16 := by omega
  rw [rawField_getLsbD, placeField_getLsbD, Nat.add_sub_cancel_left]
  simp [hi, inside]

/-- A value put beside a field leaves the field 0. -/
@[simp] theorem rawField_placeField_beside (offset : Nat) {n : Nat} (v : BitVec n) (width place : Nat)
    (beside : place + n ≤ offset ∨ offset + width ≤ place) : rawField (placeField place v) width offset = 0#width := by
  refine BitVec.eq_of_getLsbD_eq fun i hi => ?_
  rw [rawField_getLsbD, placeField_getLsbD]
  obtain below | above := beside
  · have outside : n ≤ offset + i - place := by omega
    simp [BitVec.getLsbD_of_ge v _ outside]
  · have outside : ¬ place ≤ offset + i := by omega
    simp [outside]

end Sys2Proof
end

section
/-! The encoder against the decoder: decoding an encoded instruction (30_encoding.md R52). -/

namespace Sys2Proof

/-- The opcode of an instruction's word is its family's. -/
theorem opcode_encode (i : Instr) : (extract (encode i)).opcode = i.form.family.opcode := by
  cases i with
  | rti => rfl
  | _ =>
    dsimp only [extract, encode, placeRegs, placeBranch, Instr.form, Form.family]
    simp

/-- A BR word has its condition bits and its offset where the extractor takes them (30_encoding.md R42). -/
theorem extract_placeBranch (n z p : Bool) (o : BitVec 9) :
    (extract (placeBranch n z p o)).b11 = n ∧ (extract (placeBranch n z p o)).z = z ∧
      (extract (placeBranch n z p o)).p = p ∧ (extract (placeBranch n z p o)).raw9 = o := by
  simp [extract, placeBranch, -BitVec.getLsbD_eq_getElem]

/-- The form selection on an instruction's own word makes the tests of the instruction's family. -/
theorem decode_encode {i : Instr} (wf : i.wellFormed = true) : decode (encode i) = i := by
  rw [decode, selectForm, opcode_encode, familyOf_opcode]
  cases i with
  | br o | brp o | brz o | brzp o | brn o | brnp o | brnz o | brnzp o =>
    simp [Instr.form, Form.family, encode, extract_placeBranch, branchForm]
  | jmp rb =>
    have notRet : rb ≠ 7#3 := by simpa [Instr.wellFormed] using wf
    dsimp only [Instr.form, Form.family, extract, registerField_eq, encode, placeRegs]
    simp [notRet]
  | addReg | addImm | andReg | andImm | jsrr | jsr | lshf | rshfl | rshfa =>
    dsimp only [Instr.form, Form.family, extract, registerField_eq, encode, placeRegs]
    simp [-BitVec.getLsbD_eq_getElem]
  | ldb | stb | ldr | str | ldi | sti | notReg | ret | lea | trap =>
    dsimp only [Instr.form, Form.family, extract, registerField_eq, encode, placeRegs]
    simp
  | rti => rfl

/-- Settles O1: the encoder puts every field where the extractor takes it, so the form selection finds the instruction's own opcode, mode bits
and operands. -/
theorem decodeOfEncodeIsTheInstruction : Obligations.DecodeOfEncodeIsTheInstruction := fun _ => decode_encode

end Sys2Proof
end

section
/-! The decoder against the encoder: what is left of a word that is decoded and encoded again (30_encoding.md R52, R55). -/

namespace Sys2Proof

/-- A bit that is set, put back at its place. -/
theorem placeField_one {w : Word} {i : Nat} (set : w.getLsbD i = true) : placeField i 1#1 = w &&& fieldMask 1 i := by
  rw [← placeField_ofBool, set]
  rfl

/-- A bit that is clear, put back at its place. -/
theorem placeField_zero {w : Word} {i : Nat} (clear : w.getLsbD i = false) : placeField i 0#1 = w &&& fieldMask 1 i := by
  rw [← placeField_ofBool, clear]
  rfl

/-- The opcode put back is the family's when the opcode names the family. -/
theorem placeField_opcode {w : Word} {f : Family} (named : familyOf (extract w).opcode = f) :
    placeField 12 f.opcode = w &&& fieldMask 4 12 := by
  rw [← named, opcode_familyOf]
  exact placeField_rawField w 4 12

/-- The opcode and the two register fields put back at their places. -/
theorem placeRegs_fields {w : Word} {f : Family} (named : familyOf (extract w).opcode = f) :
    placeRegs f (registerField w 9) (registerField w 6) = w &&& 0xFFC0 := by
  simp only [placeRegs, placeField_opcode named, registerField_eq, placeField_rawField, ← BitVec.and_or_distrib_left]
  rfl

/-- The opcode and the second register field put back at their places, with 0 in place of the first. -/
theorem placeRegs_rB {w : Word} {f : Family} (named : familyOf (extract w).opcode = f) :
    placeRegs f 0 (registerField w 6) = w &&& 0xF1C0 := by
  have none : placeField 9 (0 : RegIx) = 0#16 := by decide
  simp only [placeRegs, placeField_opcode named, none, BitVec.or_zero, registerField_eq, placeField_rawField,
    ← BitVec.and_or_distrib_left]
  rfl

/-- The eight BR forms have one encoding, from the condition bits and the offset, and no bit to ignore. -/
theorem encode_branchForm (n z p : Bool) (o : BitVec 9) :
    encode (branchForm n z p o) = placeBranch n z p o ∧ (branchForm n z p o).form.ignoredBits = 0 := by
  cases n <;> cases z <;> cases p <;> exact ⟨rfl, rfl⟩

/-- A BR word from the condition bits and the offset of a word with BR's opcode is that word. -/
theorem placeBranch_extract {w : Word} (named : familyOf (extract w).opcode = .br) :
    placeBranch (extract w).b11 (extract w).z (extract w).p (extract w).raw9 = w := by
  simp only [placeBranch, placeField_opcode named, extract, placeField_ofBool, placeField_rawField,
    ← BitVec.and_or_distrib_left]
  exact BitVec.and_allOnes

/-- A decoded word is well formed: JMP's base register is not 7, since such a word is RET (30_encoding.md R51). -/
theorem wellFormed_decode (w : Word) : (decode w).wellFormed = true := by
  unfold decode selectForm
  cases familyOf (extract w).opcode with
  | br => cases (extract w).b11 <;> cases (extract w).z <;> cases (extract w).p <;> rfl
  | jmp =>
    by_cases base : (extract w).rB = 7#3
    · simp [base, Instr.wellFormed]
    · simp [base, Instr.wellFormed]
  | add | and => cases (extract w).b5 <;> rfl
  | jsr => cases (extract w).b11 <;> rfl
  | shf => cases (extract w).b4 <;> cases (extract w).b5 <;> rfl
  | ldb | stb | ldr | str | rti | not | ldi | sti | lea | trap => rfl

/-- Encoding what a word decodes to puts back every field its form uses, so only the bits are cleared that the form ignores. -/
theorem encode_decode (w : Word) : encode (decode w) = w &&& ~~~(decode w).form.ignoredBits := by
  rw [decode, selectForm]
  cases named : familyOf (extract w).opcode with
  | br =>
    simp only [encode_branchForm, placeBranch_extract named]
    exact BitVec.and_allOnes.symm
  | ldb | stb | ldr | str | ldi | sti | not =>
    simp only [extract, encode, placeRegs_fields named, placeField_rawField, ← BitVec.and_or_distrib_left,
      Instr.form, Form.ignoredBits]
    exact congrArg (w &&& ·) (by decide)
  | rti =>
    have opcodeAlone : placeRegs .rti 0 0 = placeField 12 Family.rti.opcode := by decide
    simp only [encode, opcodeAlone, placeField_opcode named, Instr.form, Form.ignoredBits]
    exact congrArg (w &&& ·) (by decide)
  | trap | lea =>
    simp only [extract, encode, placeField_opcode named, registerField_eq, placeField_rawField,
      ← BitVec.and_or_distrib_left, Instr.form, Form.ignoredBits]
    exact congrArg (w &&& ·) (by decide)
  | add | and =>
    cases b5 : w.getLsbD 5 with
    | true =>
      simp only [extract, b5, if_true, encode, placeRegs_fields named, placeField_one b5, placeField_rawField,
        ← BitVec.and_or_distrib_left, Instr.form, Form.ignoredBits]
      exact congrArg (w &&& ·) (by decide)
    | false =>
      simp only [extract, b5, Bool.false_eq_true, if_false, encode, placeRegs_fields named, placeField_zero b5,
        registerField_eq w 0, placeField_rawField, ← BitVec.and_or_distrib_left, Instr.form, Form.ignoredBits]
      exact congrArg (w &&& ·) (by decide)
  | jsr =>
    cases b11 : w.getLsbD 11 with
    | true =>
      simp only [extract, b11, if_true, encode, placeField_opcode named, placeField_one b11, placeField_rawField,
        ← BitVec.and_or_distrib_left, Instr.form, Form.ignoredBits]
      exact congrArg (w &&& ·) (by decide)
    | false =>
      have clear : placeRegs .jsr 0 (registerField w 6) = w &&& 0xF1C0 ||| w &&& fieldMask 1 11 := by
        rw [← placeField_zero b11, placeRegs_rB named]
        exact BitVec.or_zero.symm
      simp only [extract, b11, Bool.false_eq_true, if_false, encode, clear, ← BitVec.and_or_distrib_left, Instr.form,
        Form.ignoredBits]
      exact congrArg (w &&& ·) (by decide)
  | jmp =>
    by_cases base : registerField w 6 = 7#3
    · have ret : placeRegs .jmp 0 7 = w &&& 0xF1C0 := by
        rw [← placeRegs_rB named, base]
        rfl
      simp only [extract, base, if_true, encode, ret, Instr.form, Form.ignoredBits]
      exact congrArg (w &&& ·) (by decide)
    · simp only [extract, base, if_false, encode, placeRegs_rB named, Instr.form, Form.ignoredBits]
      exact congrArg (w &&& ·) (by decide)
  | shf =>
    cases b4 : w.getLsbD 4 with
    | false =>
      simp only [extract, b4, Bool.false_eq_true, if_false, encode, placeRegs_fields named, placeField_zero b4,
        placeField_rawField, ← BitVec.and_or_distrib_left, Instr.form, Form.ignoredBits]
      exact congrArg (w &&& ·) (by decide)
    | true =>
      cases b5 : w.getLsbD 5 with
      | true =>
        simp only [extract, b4, b5, if_true, encode, placeRegs_fields named, placeField_one b4, placeField_one b5,
          placeField_rawField, ← BitVec.and_or_distrib_left, Instr.form, Form.ignoredBits]
        exact congrArg (w &&& ·) (by decide)
      | false =>
        simp only [extract, b4, b5, if_true, Bool.false_eq_true, if_false, encode, placeRegs_fields named,
          placeField_one b4, placeField_zero b5, placeField_rawField, ← BitVec.and_or_distrib_left, Instr.form,
          Form.ignoredBits]
        exact congrArg (w &&& ·) (by decide)

/-- Settles O2: `wellFormed_decode` and `encode_decode`, which goes through the tests of the form selection. -/
theorem encodeOfDecodeClearsOnlyIgnoredBits : Obligations.EncodeOfDecodeClearsOnlyIgnoredBits := fun w =>
  ⟨wellFormed_decode w, encode_decode w⟩

/-- Settles O4: equal instructions have one form and one encoding, and two decoded words with one encoding are the instruction that the encoding
decodes to (`decode_encode`). -/
theorem ignoredBitsAreExactlyTheUnusedBits : Obligations.IgnoredBitsAreExactlyTheUnusedBits := by
  intro w v
  constructor
  · intro alike
    rw [← encode_decode w, ← alike, encode_decode v]
    exact ⟨rfl, rfl⟩
  · rintro ⟨sameForm, agree⟩
    have sameEncoding : encode (decode v) = encode (decode w) := by
      rw [encode_decode v, encode_decode w, sameForm, agree]
    rw [← decode_encode (wellFormed_decode v), sameEncoding, decode_encode (wellFormed_decode w)]

end Sys2Proof
end

section
/-! The table of 30_encoding.md R52 as a partition of the words. -/

namespace Sys2Proof

/-- The list of the forms has every form. -/
theorem Form.mem_all (f : Form) : f ∈ Form.all := by cases f <;> decide

/-- The word of a well-formed instruction is in the instruction's row (30_encoding.md R52). -/
theorem has_encode (i : Instr) : Laws.TableRow.Statement i := by
  cases i with
  | br o => exact Laws.TableRow.br o
  | brp o => exact Laws.TableRow.brp o
  | brz o => exact Laws.TableRow.brz o
  | brzp o => exact Laws.TableRow.brzp o
  | brn o => exact Laws.TableRow.brn o
  | brnp o => exact Laws.TableRow.brnp o
  | brnz o => exact Laws.TableRow.brnz o
  | brnzp o => exact Laws.TableRow.brnzp o
  | addReg rd rs rt => exact Laws.TableRow.addReg rd rs rt
  | addImm rd rs imm => exact Laws.TableRow.addImm rd rs imm
  | ldb rd rb o => exact Laws.TableRow.ldb rd rb o
  | stb rs rb o => exact Laws.TableRow.stb rs rb o
  | jsrr rb => exact Laws.TableRow.jsrr rb
  | jsr o => exact Laws.TableRow.jsr o
  | andReg rd rs rt => exact Laws.TableRow.andReg rd rs rt
  | andImm rd rs imm => exact Laws.TableRow.andImm rd rs imm
  | ldr rd rb o => exact Laws.TableRow.ldr rd rb o
  | str rs rb o => exact Laws.TableRow.str rs rb o
  | rti => exact Laws.TableRow.rti
  | notReg rd rs => exact Laws.TableRow.notReg rd rs
  | ldi rd rb o => exact Laws.TableRow.ldi rd rb o
  | sti rs rb o => exact Laws.TableRow.sti rs rb o
  | jmp rb => exact Laws.TableRow.jmp rb
  | ret => exact Laws.TableRow.ret
  | lshf rd rs imm => exact Laws.TableRow.lshf rd rs imm
  | rshfl rd rs imm => exact Laws.TableRow.rshfl rd rs imm
  | rshfa rd rs imm => exact Laws.TableRow.rshfa rd rs imm
  | lea rd o => exact Laws.TableRow.lea rd o
  | trap v => exact Laws.TableRow.trap v

/-- A form's row tests no bit that the form ignores. -/
theorem Form.has_clear_ignoredBits (f : Form) (w : Word) : f.has (w &&& ~~~f.ignoredBits) = f.has w := by
  have mask : ~~~f.ignoredBits &&& f.row.mask = f.row.mask := by cases f <;> decide
  have base : registerField (~~~f.ignoredBits) 6 = 7#3 ∨ f.row.notBase7 = false := by cases f <;> decide
  rw [Form.has, Form.has, BitVec.and_assoc, mask]
  obtain whole | noTest := base
  · have sameBase : registerField (w &&& ~~~f.ignoredBits) 6 = registerField w 6 := by
      have sliced : registerField (w &&& ~~~f.ignoredBits) 6 = registerField w 6 &&& registerField (~~~f.ignoredBits) 6 :=
        BitVec.extractLsb'_and
      rw [sliced, whole]
      exact BitVec.and_allOnes
    rw [sameBase]
  · rw [noTest, Bool.false_and, Bool.false_and]

/-- Two different rows have different matches on the bits both of them test, but for JMP's and RET's, which the base register tells apart. -/
theorem Form.rows_differ : ∀ f ∈ Form.all, ∀ g ∈ Form.all, f ≠ g →
    f.row.matchBits &&& g.row.mask ≠ g.row.matchBits &&& f.row.mask ∨
      (f.row.notBase7 = true ∧ g = .ret) ∨ (g.row.notBase7 = true ∧ f = .ret) := by
  decide

/-- A word that meets a row has the row's match under its mask. -/
theorem Form.match_of_has {f : Form} {w : Word} (has : f.has w = true) : w &&& f.row.mask = f.row.matchBits := by
  simp only [Form.has, Bool.and_eq_true, beq_iff_eq] at has
  exact has.1

/-- A word that meets JMP's row is no word of RET's row. -/
theorem Form.not_has_ret {f : Form} {w : Word} (has : f.has w = true) (notBase7 : f.row.notBase7 = true) :
    Form.ret.has w ≠ true := by
  intro ret
  have base : registerField w 6 = 7#3 := extractLsb_of_row (hi := 8) (Form.match_of_has ret) (by decide)
  simp [Form.has, notBase7, base] at has

/-- No word meets the rows of two forms (30_encoding.md R52). -/
theorem Form.eq_of_has {f g : Form} {w : Word} (hf : f.has w = true) (hg : g.has w = true) : f = g := by
  by_contra differ
  obtain bits | ⟨notBase7, rfl⟩ | ⟨notBase7, rfl⟩ := Form.rows_differ f f.mem_all g g.mem_all differ
  · refine bits ?_
    rw [← Form.match_of_has hf, ← Form.match_of_has hg]
    ac_rfl
  · exact Form.not_has_ret hf notBase7 hg
  · exact Form.not_has_ret hg notBase7 hf

/-- A word is in the row of the form it decodes to: the word differs from an encoded instruction in bits the row does not test. -/
theorem form_decode_has (w : Word) : (decode w).form.has w = true := by
  rw [← Form.has_clear_ignoredBits, ← encode_decode]
  exact has_encode (decode w) (wellFormed_decode w)

/-- Settles O3: every word is in the row of its decoded form and in no other; the list of the forms is checked entry by entry. -/
theorem everyWordIsInExactlyItsForm : Obligations.EveryWordIsInExactlyItsForm := by
  refine ⟨fun w f => ⟨fun has => Form.eq_of_has (form_decode_has w) has, ?_⟩, rfl, by decide, Form.mem_all⟩
  rintro rfl
  exact form_decode_has w

end Sys2Proof
end

section
/-! Words from bytes (20_memory.md R32), and the fixed words and fields of 30_encoding.md R52 and 10_state.md R21. -/

namespace Sys2Proof

/-- The two bytes of a word in the build's order are two, and the word assembly undoes them (20_memory.md R32). -/
theorem wordBytes_assemble (f : Bool) (w : Word) : ∃ b0 b1, wordBytes f w = [b0, b1] ∧ assemble f b0 b1 = w := by
  obtain ⟨b0, b1, bytes⟩ : ∃ b0 b1, wordBytes f w = [b0, b1] := by cases f <;> exact ⟨_, _, rfl⟩
  refine ⟨b0, b1, bytes, ?_⟩
  have read := Machine.readAttempt_wordBytes f w []
  rw [bytes] at read
  simpa [Machine.readAttempt] using read

/-- The high byte of a word put together from two is the first value, the low byte the second. -/
theorem bytes_of_pair (high low : Byte) :
    (placeField 8 high ||| placeField 0 low).extractLsb 15 8 = high ∧
      (placeField 8 high ||| placeField 0 low).extractLsb 7 0 = low := by
  have highByte : rawField (placeField 8 high ||| placeField 0 low) 8 8 = high := by simp
  have lowByte : rawField (placeField 8 high ||| placeField 0 low) 8 0 = low := by simp
  exact ⟨highByte, lowByte⟩

/-- Settles O9: the assembly puts each byte at its half, the byte order is undone by it, and an instruction's word decodes back (`decode_encode`). -/
theorem wordsAreAssembledInByteOrder : Obligations.WordsAreAssembledInByteOrder := by
  refine ⟨fun b0 b1 => ?_, wordBytes_assemble, fun f i rest wf => ?_⟩
  · obtain ⟨high, low⟩ := bytes_of_pair b0 b1
    obtain ⟨high', low'⟩ := bytes_of_pair b1 b0
    exact ⟨high, low, high', low'⟩
  · obtain ⟨b0, b1, bytes, assembled⟩ := wordBytes_assemble f (encode i)
    rw [encodeBytes, bytes, List.cons_append, List.cons_append, List.nil_append, decodeBytes, assembled, decode_encode wf]

/-- Settles O7: each word is decoded. -/
theorem sampleWordsDecode : Obligations.SampleWordsDecode := by
  unfold Obligations.SampleWordsDecode
  decide

/-- Settles O8: the extractor's slices are the named ones, and the corrector corrects the five raw slices. -/
theorem decodedFieldsSitAtTheirBits : Obligations.DecodedFieldsSitAtTheirBits := fun _ _ =>
  ⟨rfl, rfl, rfl, rfl, rfl, rfl, rfl, rfl, rfl, rfl, rfl, rfl, rfl, rfl, rfl, rfl, rfl, rfl, rfl, rfl⟩

end Sys2Proof
end

section
/-! The sign/bias corrector (30_encoding.md R45, R46), for every field width of 1 or more. -/

namespace Sys2Proof.Machine

/-- The range of a field is twice the weight of its top bit. -/
theorem two_pow_eq_twice_top {n : Nat} (h : 1 ≤ n) : 2 ^ n = 2 * 2 ^ (n - 1) := by
  rw [← Nat.pow_succ', Nat.succ_eq_add_one, Nat.sub_add_cancel h]

/-- A raw field is less than twice the weight of its top bit. -/
theorem toNat_lt_twice_top {n : Nat} (h : 1 ≤ n) (raw : BitVec n) : raw.toNat < 2 * 2 ^ (n - 1) :=
  two_pow_eq_twice_top h ▸ raw.isLt

/-- Two's complement by the top bit's weight: a raw value at or above it counts the whole range less. -/
theorem toInt_eq_by_top {n : Nat} (h : 1 ≤ n) (raw : BitVec n) :
    raw.toInt = if 2 ^ (n - 1) ≤ raw.toNat then (raw.toNat : Int) - 2 * 2 ^ (n - 1) else raw.toNat := by
  have range : ((2 ^ n : Nat) : Int) = 2 * 2 ^ (n - 1) := by rw [two_pow_eq_twice_top h]; push_cast; rfl
  rw [BitVec.toInt_eq_msb_cond, BitVec.msb_eq_decide, range]
  simp

/-- The spec's two's-complement reading is the library's (00_scope.md R7). -/
theorem sextValue_eq_toInt {n : Nat} (h : 1 ≤ n) (raw : BitVec n) : sextValue raw = raw.toInt := by
  have range : (2 ^ n : Int) = 2 * 2 ^ (n - 1) := by exact_mod_cast two_pow_eq_twice_top h
  rw [sextValue, toInt_eq_by_top h, range]

/-- The biased value lies in the field's signed range (30_encoding.md R45). -/
theorem biasValue_bounds {n : Nat} (h : 1 ≤ n) (raw : BitVec n) :
    -(2 ^ (n - 1) : Int) ≤ biasValue raw ∧ biasValue raw ≤ 2 ^ (n - 1) - 1 := by
  have below : (raw.toNat : Int) < 2 * 2 ^ (n - 1) := by exact_mod_cast toNat_lt_twice_top h raw
  rw [biasValue]
  omega

/-- Settles O10: the corrector's two settings are `biasValue` and `sextValue`, and each landmark is the value at one raw pattern. -/
theorem fieldsAreReadInBiasedEncoding : Obligations.FieldsAreReadInBiasedEncoding := by
  intro b n raw width
  refine ⟨fun bias => ?_, fun twos => ?_⟩
  · have value : correctedValue b raw = (raw.toNat : Int) - 2 ^ (n - 1) := correctedValue_of_bias bias raw
    obtain ⟨least, greatest⟩ := biasValue_bounds width raw
    refine ⟨value, value ▸ least, value ▸ greatest, fun zero => ?_, fun middle => ?_, fun ones => ?_⟩
    · rw [value, zero]; simp
    · rw [value, middle]; simp
    · have all : (raw.toNat : Int) = 2 * 2 ^ (n - 1) - 1 := by
        have positive : 0 < 2 ^ (n - 1) := Nat.two_pow_pos _
        rw [ones, BitVec.toNat_allOnes, two_pow_eq_twice_top width, Nat.cast_sub (by omega)]
        push_cast
        rfl
      omega
  · rw [correctedValue, twos]
    exact sextValue_eq_toInt width raw

/-- Inverting the top bit of a field adds its weight, modulo the range. -/
theorem xor_top_eq_add {n : Nat} (h : 1 ≤ n) (raw : BitVec n) :
    raw ^^^ BitVec.twoPow n (n - 1) = raw + BitVec.twoPow n (n - 1) := by
  have weight : 2 ^ (n - 1) % 2 ^ n = 2 ^ (n - 1) := Nat.mod_eq_of_lt (Nat.pow_lt_pow_right (by decide) (by omega))
  refine BitVec.eq_of_getLsbD_eq fun i hi => ?_
  have sum : (raw + BitVec.twoPow n (n - 1)).getLsbD i = (2 ^ (n - 1) + raw.toNat).testBit i := by
    rw [← BitVec.testBit_toNat, BitVec.toNat_add, BitVec.toNat_twoPow, weight, Nat.testBit_mod_two_pow, Nat.add_comm]
    simp [hi]
  rw [sum, BitVec.getLsbD_xor, BitVec.getLsbD_twoPow]
  by_cases top : n - 1 = i
  · subst top
    rw [Nat.testBit_two_pow_add_eq, BitVec.testBit_toNat]
    simp [hi]
  · rw [Nat.testBit_two_pow_add_gt (by omega), BitVec.testBit_toNat]
    simp [top]

/-- The biased value is the two's-complement value of the field with its top bit inverted (30_encoding.md R46). -/
theorem biasValue_eq_toInt_xor_top {n : Nat} (h : 1 ≤ n) (raw : BitVec n) :
    biasValue raw = (raw ^^^ BitVec.twoPow n (n - 1)).toInt := by
  have below := toNat_lt_twice_top h raw
  have range := two_pow_eq_twice_top h
  rw [xor_top_eq_add h, toInt_eq_by_top h, BitVec.toNat_add, BitVec.toNat_twoPow, biasValue, Nat.add_mod_mod, range]
  have cast : ((2 ^ (n - 1) : Nat) : Int) = 2 ^ (n - 1) := by push_cast; rfl
  by_cases top : 2 ^ (n - 1) ≤ raw.toNat
  · have wrapped : (raw.toNat + 2 ^ (n - 1)) % (2 * 2 ^ (n - 1)) = raw.toNat - 2 ^ (n - 1) := by
      rw [Nat.mod_eq_sub_mod (by omega), Nat.mod_eq_of_lt (by omega)]; omega
    rw [wrapped]
    split_ifs <;> omega
  · have unwrapped : (raw.toNat + 2 ^ (n - 1)) % (2 * 2 ^ (n - 1)) = raw.toNat + 2 ^ (n - 1) := Nat.mod_eq_of_lt (by omega)
    rw [unwrapped]
    split_ifs <;> omega

/-- Settles O11: inverting the top bit adds its weight modulo the range (`xor_top_eq_add`), and the two readings differ by that weight up or down. -/
theorem biasIsTwosComplementWithTopBitInverted : Obligations.BiasIsTwosComplementWithTopBitInverted := by
  intro n raw width
  have positive : (0 : Int) < 2 ^ (n - 1) := by positivity
  have lower : raw.toNat < 2 ^ (n - 1) → biasValue raw = raw.toInt - 2 ^ (n - 1) := fun below => by
    rw [toInt_eq_by_top width, if_neg (by omega), biasValue]
  have upper : 2 ^ (n - 1) ≤ raw.toNat → biasValue raw = raw.toInt + 2 ^ (n - 1) := fun above => by
    rw [toInt_eq_by_top width, if_pos above, biasValue]
    omega
  refine ⟨biasValue_eq_toInt_xor_top width raw, lower, upper, ?_⟩
  obtain below | above := Nat.lt_or_ge raw.toNat (2 ^ (n - 1))
  · rw [lower below]; omega
  · rw [upper above]; omega

end Sys2Proof.Machine
end

section
/-! Printed numbers (00_scope.md R8): the decimal digits, the sign and the two hexadecimal digits. -/

namespace Sys2Proof.Machine

/-- The digits do not depend on the fuel, as long as it is above the number. -/
theorem decDigits_fuel {fuel fuel' n : Nat} (h : n < fuel) (h' : n < fuel') : decDigits fuel n = decDigits fuel' n := by
  induction fuel generalizing fuel' n with
  | zero => omega
  | succ fuel ih =>
    obtain ⟨fuel', rfl⟩ : ∃ k, fuel' = k + 1 := ⟨fuel' - 1, by omega⟩
    rw [decDigits, decDigits]
    split_ifs
    · rfl
    · rw [ih (fuel' := fuel') (n := n / 10) (by omega) (by omega)]

theorem dec_of_lt {n : Nat} (h : n < 10) : dec n = [decDigit n] := by
  rw [dec, decDigits, if_pos h]

theorem dec_of_ge {n : Nat} (h : 10 ≤ n) : dec n = dec (n / 10) ++ [decDigit (n % 10)] := by
  rw [dec, decDigits, if_neg (by omega), dec, decDigits_fuel (fuel' := n / 10 + 1) (by omega) (by omega)]

/-- A property of numbers and their digits holds of all if it holds of one digit and is kept when a digit is put behind. -/
theorem dec_induction {P : Nat → List Byte → Prop} (one : ∀ n < 10, P n [decDigit n])
    (more : ∀ n ≥ 10, P (n / 10) (dec (n / 10)) → P n (dec (n / 10) ++ [decDigit (n % 10)])) (n : Nat) : P n (dec n) := by
  induction n using Nat.strong_induction_on with
  | _ n ih =>
    obtain small | large := Nat.lt_or_ge n 10
    · exact dec_of_lt small ▸ one n small
    · exact dec_of_ge large ▸ more n large (ih (n / 10) (by omega))

/-- The character of a decimal digit. -/
theorem decDigit_toNat {d : Nat} (h : d < 10) : (decDigit d).toNat = 0x30 + d := by
  rw [decDigit, BitVec.toNat_ofNat, Nat.mod_eq_of_lt (by omega)]

/-- A digit put behind counts once and the ones before it ten times. -/
theorem decimalValue_append (t : List Byte) (c : Byte) : decimalValue (t ++ [c]) = 10 * decimalValue t + (c.toNat - 0x30) := by
  rw [decimalValue, List.foldl_append]
  rfl

theorem decimalValue_dec (n : Nat) : decimalValue (dec n) = n := by
  refine dec_induction (P := fun n t => decimalValue t = n) (fun n small => ?_) (fun n _ ih => ?_) n
  · have digit := decimalValue_append [] (decDigit n)
    rw [decDigit_toNat small] at digit
    simpa [decimalValue] using digit
  · rw [decimalValue_append, ih, decDigit_toNat (Nat.mod_lt _ (by decide))]
    omega

theorem dec_ne_nil (n : Nat) : dec n ≠ [] :=
  dec_induction (P := fun _ t => t ≠ []) (fun _ _ => by simp) (fun _ _ _ => by simp) n

/-- Every printed decimal character is a digit's. -/
theorem dec_digits (n : Nat) : ∀ c ∈ dec n, ∃ d < 10, c = decDigit d := by
  refine dec_induction (P := fun _ t => ∀ c ∈ t, ∃ d < 10, c = decDigit d) (fun n small => ?_) (fun n _ ih => ?_) n
  · simpa using ⟨n, small, rfl⟩
  · intro c hc
    obtain before | last := List.mem_append.mp hc
    · exact ih c before
    · exact ⟨n % 10, Nat.mod_lt _ (by decide), List.mem_singleton.mp last⟩

/-- Only the number 0 has a leading zero. -/
theorem eq_zero_of_head_dec (n : Nat) : (dec n).head? = some 0x30#8 → n = 0 := by
  refine dec_induction (P := fun n t => t.head? = some 0x30#8 → n = 0) (fun n small head => ?_) (fun n large ih head => ?_) n
  · have digit : decDigit n = 0x30#8 := by simpa using head
    have value := decDigit_toNat small
    rw [digit] at value
    simp at value
    omega
  · rw [List.head?_append_of_ne_nil _ (dec_ne_nil _)] at head
    have := ih head
    omega

/-- A number below `10 ^ k` has at most `k` digits. -/
theorem dec_length_le (n : Nat) : ∀ k ≥ 1, n < 10 ^ k → (dec n).length ≤ k := by
  refine dec_induction (P := fun n t => ∀ k ≥ 1, n < 10 ^ k → t.length ≤ k) (fun n _ k hk _ => hk) (fun n large ih k _ below => ?_) n
  obtain _ | k := k
  · simp at below; omega
  · have shorter : n / 10 < 10 ^ k := by rw [pow_succ] at below; omega
    have hk : k ≠ 0 := by rintro rfl; simp at shorter; omega
    have := ih k (Nat.pos_of_ne_zero hk) shorter
    simpa using this

/-- A hexadecimal digit reads back and is of the build's case (00_scope.md R8, decision D9). -/
theorem hexDigit_readBack : ∀ (upper : Bool), ∀ d < 16, hexDigitValue (hexDigit upper d) = d ∧
    ((0x30 ≤ (hexDigit upper d).toNat ∧ (hexDigit upper d).toNat ≤ 0x39) ∨
      (upper = true ∧ 0x41 ≤ (hexDigit upper d).toNat ∧ (hexDigit upper d).toNat ≤ 0x46) ∨
      (upper = false ∧ 0x61 ≤ (hexDigit upper d).toNat ∧ (hexDigit upper d).toNat ≤ 0x66)) := by
  decide

/-- The sign is a `-` before the magnitude, on negative values only. -/
theorem sdec_eq (v : Int) : sdec v = if v < 0 then 0x2D#8 :: dec v.natAbs else dec v.natAbs := by
  rw [sdec]
  split_ifs with negative
  · rw [← Int.natAbs_neg, ← Int.toNat_of_nonneg (a := -v) (by omega)]
    rfl
  · congr 1
    omega

/-- Settles O12: the decimal facts by induction on the digits, the sign by `sdec_eq`, the two hexadecimal digits digit by digit. -/
theorem printedNumbersReadBack : Obligations.PrintedNumbersReadBack := by
  refine ⟨fun n => ⟨decimalValue_dec n, dec_ne_nil n, fun c hc => ?_, fun head => ?_⟩, fun v => ⟨fun negative => ?_, fun other => ?_⟩,
    fun upper v => ?_⟩
  · obtain ⟨d, small, rfl⟩ := dec_digits n c hc
    rw [decDigit_toNat small]
    omega
  · rw [eq_zero_of_head_dec n head]
    rfl
  · rw [sdec_eq, if_pos negative]
  · rw [sdec_eq, if_neg (by omega)]
  · obtain ⟨high, highCase⟩ := hexDigit_readBack upper (v.toNat / 16) (by have := v.isLt; omega)
    obtain ⟨low, lowCase⟩ := hexDigit_readBack upper (v.toNat % 16) (by omega)
    refine ⟨_, _, rfl, ?_, ?_⟩
    · rw [high, low]
      omega
    · simpa using ⟨highCase, lowCase⟩

end Sys2Proof.Machine
end

section
/-! The line of an instruction in one shape for all forms: its row's mnemonic, its operand strings, what follows them, and the LF (40_datapath.md
R67 to R71). -/

namespace Sys2Proof.Machine

/-- The operand strings of an instruction (40_datapath.md R67 to R69). -/
def operandTexts (b : Build) : Instr → List (List Byte)
  | .br o | .brp o | .brz o | .brzp o | .brn o | .brnp o | .brnz o | .brnzp o => [immText (correctedValue b o)]
  | .addReg rd rs rt | .andReg rd rs rt => [regText rd, regText rs, regText rt]
  | .addImm rd rs imm | .andImm rd rs imm => [regText rd, regText rs, immText (correctedValue b imm)]
  | .ldb r rb o | .stb r rb o | .ldr r rb o | .str r rb o | .ldi r rb o | .sti r rb o =>
    [regText r, regText rb, immText (correctedValue b o)]
  | .jsrr rb | .jmp rb => [regText rb]
  | .jsr o => [immText (correctedValue b o)]
  | .rti | .ret => []
  | .notReg rd rs => [regText rd, regText rs]
  | .lshf rd rs imm | .rshfl rd rs imm | .rshfa rd rs imm => [regText rd, regText rs, immText (correctedValue b imm)]
  | .lea rd o => [regText rd, immText (correctedValue b o)]
  | .trap v => [hexText b.hexUpper v]

/-- What follows the `;` of a TRAP line before the LF: a space and the vector's name, if it has one (46_trap.md R103). -/
def trapNameText (v : BitVec 8) : List Byte :=
  match trapName v with
  | some name => 0x20#8 :: name
  | none => []

/-- What follows the operands before the LF (40_datapath.md R71; 46_trap.md R103). -/
def closingText : Instr → List Byte
  | .ret | .lshf _ _ _ | .rshfl _ _ _ | .rshfa _ _ _ => []
  | .trap v => ascii " ;" ++ trapNameText v
  | _ => ascii " ;"

/-- The mnemonic and the operands of an instruction's line. -/
def bodyText (b : Build) (i : Instr) : List Byte := lineBody (ascii i.form.row.mnemonic) (operandTexts b i)

/-- The whole line of an instruction. -/
def lineText (b : Build) (i : Instr) : List Byte := bodyText b i ++ closingText i ++ [lf]

/-- A line without a `;` has nothing between its operands and the LF. -/
theorem bare_eq (mnemonic : List Byte) (ops : List (List Byte)) : bare mnemonic ops = lineBody mnemonic ops ++ [] ++ [lf] := by
  rw [List.append_nil, bare]

/-- TRAP's line, with or without a name, is of the one shape. -/
theorem lineTrap_eq (b : Build) (v : BitVec 8) : lineTrap b.hexUpper v = lineText b (.trap v) := by
  have shape : lineText b (.trap v) =
      ascii "TRAP" ++ (ascii " " ++ hexText b.hexUpper v) ++ (ascii " ;" ++ trapNameText v) ++ [lf] := rfl
  have mnemonic : ascii "TRAP " = ascii "TRAP" ++ ascii " " := by decide
  have named : ascii " ; " = ascii " ;" ++ [0x20#8] := by decide
  rw [shape, lineTrap, trapNameText]
  cases trapName v with
  | none => simp only [mnemonic, List.append_assoc, List.append_nil]
  | some name => simp only [mnemonic, named, List.append_assoc, List.cons_append, List.nil_append]

/-- BR's mnemonic is `BR` and its condition letters (42_control.md R85). -/
theorem mnemonic_branchForm (n z p : Bool) (o : BitVec 9) :
    ascii (branchForm n z p o).form.row.mnemonic = ascii "BR" ++ conditionLetters n z p := by
  rw [form_branchForm]
  cases n <;> cases z <;> cases p <;> decide

/-- The eight BR forms print their condition letters as their rows' mnemonics do (42_control.md R85). -/
theorem lineBr_eq (b : Build) (n z p : Bool) (o : BitVec 9) :
    lineBr n z p (correctedValue b o) = lineText b (branchForm n z p o) := by
  have shape : lineText b (branchForm n z p o) =
      semi (ascii (branchForm n z p o).form.row.mnemonic) [immText (correctedValue b o)] := by
    cases n <;> cases z <;> cases p <;> rfl
  rw [shape, mnemonic_branchForm, lineBr]

/-- A BR instruction's meaning is BR's transaction on its line, whatever its condition bits. -/
theorem exec_branchForm_eq_transact (n z p : Bool) (o : BitVec 9) (s : State) :
    exec (branchForm n z p o) s = transact .br (lineText s.build (branchForm n z p o)) s := by
  rw [exec_branchForm, lineBr_eq]

/-- Every instruction's meaning is its family's transaction on its line. -/
theorem exec_eq_transact (i : Instr) (s : State) : exec i s = transact i.form.family (lineText s.build i) s := by
  cases i with
  | trap v => exact congrArg (transact .trap · s) (lineTrap_eq s.build v)
  | ret => exact congrArg (transact .jmp · s) (bare_eq _ _)
  | lshf | rshfl | rshfa => exact congrArg (transact .shf · s) (bare_eq _ _)
  | br o => exact exec_branchForm_eq_transact false false false o s
  | brp o => exact exec_branchForm_eq_transact false false true o s
  | brz o => exact exec_branchForm_eq_transact false true false o s
  | brzp o => exact exec_branchForm_eq_transact false true true o s
  | brn o => exact exec_branchForm_eq_transact true false false o s
  | brnp o => exact exec_branchForm_eq_transact true false true o s
  | brnz o => exact exec_branchForm_eq_transact true true false o s
  | brnzp o => exact exec_branchForm_eq_transact true true true o s
  | addReg | addImm | ldb | stb | jsrr | jsr | andReg | andImm | ldr | str | rti | notReg | ldi | sti | jmp | lea => rfl

/-- The family decoder writes the line of the instruction that the form selection yields from the same fields (40_datapath.md R63). -/
theorem familyDecoder_eq (b : Build) (F : Fields) :
    familyDecoder b (familyOf F.opcode) F (correct b F) = lineText b (selectForm F) := by
  unfold familyDecoder selectForm
  cases familyOf F.opcode with
  | br => exact lineBr_eq b F.b11 F.z F.p F.raw9
  | add | and => cases F.b5 <;> rfl
  | jsr => cases F.b11 <;> rfl
  | jmp => dsimp only; split_ifs; exacts [bare_eq _ _, rfl]
  | shf => cases F.b4 <;> cases F.b5 <;> exact bare_eq _ _
  | trap => exact lineTrap_eq b F.vec8
  | ldb | stb | ldr | str | rti | not | ldi | sti | lea => rfl

/-- A decode's result: the error for a rejected opcode, the line of the decoded instruction otherwise. -/
theorem decodeToResult_eq_lineText (b : Build) (w : Word) :
    decodeToResult b w =
      if w.extractLsb 15 12 ∈ b.undefinedOpcodes then .error .undefinedOpcode else .line (lineText b (decode w)) := by
  rw [decodeToResult_eq, familyDecoder_eq, extract_opcode]
  rfl

/-- A word's line is its instruction's. -/
theorem line_eq_lineText {b : Build} {w : Word} {t : List Byte} (line : decodeToResult b w = .line t) :
    t = lineText b (decode w) := by
  rw [decodeToResult_eq_lineText] at line
  split_ifs at line
  exact (Result.line.inj line).symm

end Sys2Proof.Machine
end

section
/-! The characters of a line (40_datapath.md R72, R75). -/

namespace Sys2Proof.Machine

/-- The characters before a line's `;` in a build with upper-case digits: those of 40_datapath.md R75 but for the `;`. -/
def bodyAlphabet : List Byte := ascii "ABCDEFGHIJKLMNOPQRSTUVWXYZnzpx0123456789#-, "

/-- A character of a line other than the `;` and the LF: one of the alphabet's, or a lower-case hexadecimal digit in a build that prints such. -/
def BodyChar (b : Build) (c : Byte) : Prop := c ∈ bodyAlphabet ∨ (b.hexUpper = false ∧ c ∈ ascii "abcdef")

/-- One list of characters is part of another, by a check that evaluates fast. -/
theorem mem_of_all_contains {s t : List Byte} (check : s.all t.contains = true) : ∀ c ∈ s, c ∈ t := by
  simpa [List.all_eq_true] using check

/-- The alphabet is printable, without the `;`, and part of the formatter's. -/
theorem bodyAlphabet_chars : ∀ c ∈ bodyAlphabet, (0x20 ≤ c.toNat ∧ c.toNat ≤ 0x7E) ∧ c ≠ 0x3B#8 ∧ c ∈ lineAlphabet := by
  have check : bodyAlphabet.all (fun c => 0x20 ≤ c.toNat && c.toNat ≤ 0x7E && c != 0x3B#8) = true := by decide
  have printable : ∀ c ∈ bodyAlphabet, (0x20 ≤ c.toNat ∧ c.toNat ≤ 0x7E) ∧ c ≠ 0x3B#8 := by
    simpa [List.all_eq_true, and_assoc] using check
  have known : ∀ c ∈ bodyAlphabet, c ∈ lineAlphabet := mem_of_all_contains (by decide)
  exact fun c hc => ⟨(printable c hc).1, (printable c hc).2, known c hc⟩

/-- A body character is printable and no `;`, and one of the formatter's alphabet in a build with upper-case digits. -/
theorem BodyChar.facts {b : Build} {c : Byte} (body : BodyChar b c) :
    (0x20 ≤ c.toNat ∧ c.toNat ≤ 0x7E) ∧ c ≠ 0x3B#8 ∧ (b.hexUpper = true → c ∈ lineAlphabet) := by
  obtain listed | ⟨lower, letter⟩ := body
  · obtain ⟨printable, noSemicolon, known⟩ := bodyAlphabet_chars c listed
    exact ⟨printable, noSemicolon, fun _ => known⟩
  · have letters : ∀ c ∈ ascii "abcdef", (0x20 ≤ c.toNat ∧ c.toNat ≤ 0x7E) ∧ c ≠ 0x3B#8 := by decide
    obtain ⟨printable, noSemicolon⟩ := letters c letter
    exact ⟨printable, noSemicolon, fun upper => absurd (lower.symm.trans upper) (by decide)⟩

theorem mnemonic_chars (f : Form) : ∀ c ∈ ascii f.row.mnemonic, c ∈ bodyAlphabet := by
  cases f <;> exact mem_of_all_contains (by decide)

theorem dec_chars (n : Nat) : ∀ c ∈ dec n, c ∈ bodyAlphabet := by
  have digits : ∀ d < 10, decDigit d ∈ bodyAlphabet := by decide
  intro c hc
  obtain ⟨d, small, rfl⟩ := dec_digits n c hc
  exact digits d small

theorem regText_chars (r : RegIx) : ∀ c ∈ regText r, c ∈ bodyAlphabet :=
  List.forall_mem_append.mpr ⟨mem_of_all_contains (by decide), dec_chars r.toNat⟩

theorem immText_chars (v : Int) : ∀ c ∈ immText v, c ∈ bodyAlphabet := by
  refine List.forall_mem_append.mpr ⟨mem_of_all_contains (by decide), ?_⟩
  rw [sdec_eq]
  split_ifs
  · exact List.forall_mem_cons.mpr ⟨by decide, dec_chars v.natAbs⟩
  · exact dec_chars v.natAbs

theorem hexText_chars (b : Build) (v : BitVec 8) : ∀ c ∈ hexText b.hexUpper v, BodyChar b c := by
  have digits : ∀ (upper : Bool), ∀ d < 16, hexDigit upper d ∈ bodyAlphabet ∨ (upper = false ∧ hexDigit upper d ∈ ascii "abcdef") := by
    decide
  refine List.forall_mem_append.mpr ⟨fun c hc => .inl ?_, ?_⟩
  · exact mem_of_all_contains (s := ascii "0x") (by decide) c hc
  · have high := digits b.hexUpper (v.toNat / 16) (by have := v.isLt; omega)
    have low := digits b.hexUpper (v.toNat % 16) (by omega)
    exact List.forall_mem_cons.mpr ⟨high, List.forall_mem_singleton.mpr low⟩

/-- The operand strings keep to the body's characters. -/
theorem operandTexts_chars (b : Build) (i : Instr) : ∀ op ∈ operandTexts b i, ∀ c ∈ op, BodyChar b c := by
  have reg : ∀ r : RegIx, ∀ c ∈ regText r, BodyChar b c := fun r c hc => .inl (regText_chars r c hc)
  have imm : ∀ v : Int, ∀ c ∈ immText v, BodyChar b c := fun v c hc => .inl (immText_chars v c hc)
  cases i with
  | rti | ret => exact List.forall_mem_nil _
  | trap v => exact List.forall_mem_singleton.mpr (hexText_chars b v)
  | br | brp | brz | brzp | brn | brnp | brnz | brnzp | jsr => exact List.forall_mem_singleton.mpr (imm _)
  | jsrr | jmp => exact List.forall_mem_singleton.mpr (reg _)
  | notReg => exact List.forall_mem_cons.mpr ⟨reg _, List.forall_mem_singleton.mpr (reg _)⟩
  | lea => exact List.forall_mem_cons.mpr ⟨reg _, List.forall_mem_singleton.mpr (imm _)⟩
  | addReg | andReg =>
    exact List.forall_mem_cons.mpr ⟨reg _, List.forall_mem_cons.mpr ⟨reg _, List.forall_mem_singleton.mpr (reg _)⟩⟩
  | addImm | andImm | ldb | stb | ldr | str | ldi | sti | lshf | rshfl | rshfa =>
    exact List.forall_mem_cons.mpr ⟨reg _, List.forall_mem_cons.mpr ⟨reg _, List.forall_mem_singleton.mpr (imm _)⟩⟩

/-- Joining strings adds the characters of the separator only. -/
theorem join_chars {P : Byte → Prop} {sep : List Byte} (hsep : ∀ c ∈ sep, P c) :
    ∀ {ops : List (List Byte)}, (∀ op ∈ ops, ∀ c ∈ op, P c) → ∀ c ∈ join sep ops, P c
  | [], _ => by simp [join]
  | [op], h => h op (by simp)
  | op :: op' :: rest, h => by
    rw [join]
    have rest_chars := join_chars hsep (ops := op' :: rest) fun o ho => h o (List.mem_cons_of_mem _ ho)
    exact List.forall_mem_append.mpr ⟨List.forall_mem_append.mpr ⟨h op (by simp), hsep⟩, rest_chars⟩

theorem bodyText_chars (b : Build) (i : Instr) : ∀ c ∈ bodyText b i, BodyChar b c := by
  have space : ∀ c ∈ ascii " ", BodyChar b c := fun c hc => .inl (mem_of_all_contains (by decide) c hc)
  have comma : ∀ c ∈ ascii ", ", BodyChar b c := fun c hc => .inl (mem_of_all_contains (by decide) c hc)
  refine List.forall_mem_append.mpr ⟨fun c hc => .inl (mnemonic_chars i.form c hc), ?_⟩
  split_ifs
  · exact fun c hc => absurd hc (List.not_mem_nil)
  · exact List.forall_mem_append.mpr ⟨space, join_chars comma (operandTexts_chars b i)⟩

/-- The name part of a TRAP line is one of six (46_trap.md R104). -/
theorem trapNameText_mem (v : BitVec 8) :
    trapNameText v ∈ [[], ascii " GETC", ascii " OUT", ascii " PUTS", ascii " IN", ascii " HALT"] := by
  unfold trapNameText trapName
  split_ifs <;> decide

theorem trapNameText_chars (v : BitVec 8) : ∀ c ∈ trapNameText v, c ∈ bodyAlphabet := by
  have names : ∀ t ∈ [[], ascii " GETC", ascii " OUT", ascii " PUTS", ascii " IN", ascii " HALT"],
      t.all bodyAlphabet.contains = true := by decide
  exact mem_of_all_contains (names _ (trapNameText_mem v))

/-- The closing of a line is empty, or a space, the `;`, and a name of body characters. -/
theorem closingText_cases (i : Instr) :
    closingText i = [] ∨ ∃ name, closingText i = ascii " ;" ++ name ∧ ∀ c ∈ name, c ∈ bodyAlphabet := by
  cases i with
  | ret | lshf | rshfl | rshfa => exact .inl rfl
  | trap v => exact .inr ⟨trapNameText v, rfl, trapNameText_chars v⟩
  | _ => exact .inr ⟨[], rfl, by simp⟩

/-- Every character before the LF is a body character or the `;`. -/
theorem lineText_chars (b : Build) (i : Instr) : ∀ c ∈ bodyText b i ++ closingText i, BodyChar b c ∨ c = 0x3B#8 := by
  refine List.forall_mem_append.mpr ⟨fun c hc => .inl (bodyText_chars b i c hc), ?_⟩
  have semicolon : ∀ c ∈ ascii " ;", c ∈ bodyAlphabet ∨ c = 0x3B#8 := by decide
  obtain empty | ⟨name, closing, chars⟩ := closingText_cases i
  · simp [empty]
  · rw [closing]
    exact List.forall_mem_append.mpr ⟨fun c hc => (semicolon c hc).imp_left .inl, fun c hc => .inl (.inl (chars c hc))⟩

/-- Settles O14: the body and the closing keep to the alphabet in a build with upper-case digits. -/
theorem linesKeepToTheAlphabet : Obligations.LinesKeepToTheAlphabet := by
  intro b w t upper line
  refine ⟨_, line_eq_lineText line, fun c hc => ?_⟩
  obtain body | rfl := lineText_chars b (decode w) c hc
  · exact body.facts.2.2 upper
  · decide

end Sys2Proof.Machine
end

section
/-! The length of a line (40_datapath.md R73). -/

namespace Sys2Proof.Machine

/-- Either convention's value has at most the magnitude of the field's top bit (30_encoding.md R45). -/
theorem correctedValue_natAbs_le (b : Build) {n : Nat} (h : 1 ≤ n) (raw : BitVec n) :
    (correctedValue b raw).natAbs ≤ 2 ^ (n - 1) := by
  have below := toNat_lt_twice_top h raw
  have cast : ((2 ^ (n - 1) : Nat) : Int) = 2 ^ (n - 1) := by push_cast; rfl
  rw [correctedValue]
  cases b.fieldConvention with
  | bias =>
    have bounds := biasValue_bounds h raw
    dsimp only
    omega
  | twosComplement =>
    have value := (sextValue_eq_toInt h raw).trans (toInt_eq_by_top h raw)
    dsimp only
    split_ifs at value <;> omega

theorem regText_length (r : RegIx) : (regText r).length = 2 := by
  have small : r.toNat < 10 := by have := r.isLt; omega
  have lead : (ascii "R").length = 1 := by decide
  rw [regText, List.length_append, lead, dec_of_lt small]
  rfl

/-- A printed field has the `#`, a sign at most, and a digit or more, at most `k` of them if its magnitudes have no more. -/
theorem immText_length (b : Build) {n : Nat} (h : 1 ≤ n) (raw : BitVec n) (k : Nat) (hk : 1 ≤ k) (fits : 2 ^ (n - 1) < 10 ^ k) :
    2 ≤ (immText (correctedValue b raw)).length ∧ (immText (correctedValue b raw)).length ≤ k + 2 := by
  have digits := dec_length_le (correctedValue b raw).natAbs k hk ((correctedValue_natAbs_le b h raw).trans_lt fits)
  have some := List.length_pos_iff.mpr (dec_ne_nil (correctedValue b raw).natAbs)
  have lead : (ascii "#").length = 1 := by decide
  rw [immText, List.length_append, lead, sdec_eq]
  split_ifs
  · rw [List.length_cons]
    omega
  · omega

theorem hexText_length (upper : Bool) (v : BitVec 8) : (hexText upper v).length = 4 := rfl

/-- A body without operands is the mnemonic; with operands, a space follows it, and two bytes stand between each two operands (40_datapath.md R70). -/
theorem lineBody_length_nil (m : List Byte) : (lineBody m []).length = m.length := by
  simp [lineBody]

theorem lineBody_length_one (m x : List Byte) : (lineBody m [x]).length = m.length + 1 + x.length := by
  have space : (ascii " ").length = 1 := by decide
  simp [lineBody, join, space]
  omega

theorem lineBody_length_two (m x y : List Byte) : (lineBody m [x, y]).length = m.length + x.length + y.length + 3 := by
  have space : (ascii " ").length = 1 := by decide
  have comma : (ascii ", ").length = 2 := by decide
  simp [lineBody, join, space, comma]
  omega

theorem lineBody_length_three (m x y z : List Byte) :
    (lineBody m [x, y, z]).length = m.length + x.length + y.length + z.length + 5 := by
  have space : (ascii " ").length = 1 := by decide
  have comma : (ascii ", ").length = 2 := by decide
  simp [lineBody, join, space, comma]
  omega

/-- The mnemonics have two to five letters, those of three operands with a `;` three, and RTI's and RET's three. -/
theorem mnemonic_length (f : Form) :
    2 ≤ (ascii f.row.mnemonic).length ∧ (ascii f.row.mnemonic).length ≤ 5 ∧
      (f ∈ [.addImm, .andImm, .ldb, .stb, .ldr, .str, .ldi, .sti, .rti, .ret] → (ascii f.row.mnemonic).length = 3) := by
  cases f <;> decide

/-- The closing of a TRAP line is a space, the `;` and at most five bytes of a name. -/
theorem closingText_length_trap (v : BitVec 8) : 2 ≤ (closingText (.trap v)).length ∧ (closingText (.trap v)).length ≤ 7 := by
  have names : ∀ t ∈ [[], ascii " GETC", ascii " OUT", ascii " PUTS", ascii " IN", ascii " HALT"],
      2 ≤ (ascii " ;" ++ t).length ∧ (ascii " ;" ++ t).length ≤ 7 := by decide
  exact names _ (trapNameText_mem v)

/-- A line has 4 to 19 bytes, and 6 or more but for RET's (40_datapath.md R73). -/
theorem lineText_length (b : Build) (i : Instr) :
    4 ≤ (lineText b i).length ∧ (lineText b i).length ≤ 19 ∧ ((lineText b i).length < 6 → i.form = .ret) := by
  have length : (lineText b i).length = (bodyText b i).length + (closingText i).length + 1 := by
    rw [lineText, List.length_append, List.length_append, List.length_singleton]
  have semicolon : (ascii " ;").length = 2 := by decide
  obtain ⟨shortest, longest, three⟩ := mnemonic_length i.form
  rw [length, bodyText]
  cases i with
  | br o | brp o | brz o | brzp o | brn o | brnp o | brnz o | brnzp o =>
    have imm := immText_length b (by decide) o 3 (by decide) (by decide)
    simp only [operandTexts, closingText, lineBody_length_one, semicolon]
    omega
  | jsr o =>
    have imm := immText_length b (by decide) o 4 (by decide) (by decide)
    simp only [operandTexts, closingText, lineBody_length_one, semicolon]
    omega
  | addReg rd rs rt | andReg rd rs rt =>
    simp only [operandTexts, closingText, lineBody_length_three, semicolon, regText_length]
    omega
  | addImm rd rs o | andImm rd rs o | ldb rd rs o | stb rd rs o | ldr rd rs o | str rd rs o | ldi rd rs o | sti rd rs o =>
    have imm := immText_length b (by decide) o 2 (by decide) (by decide)
    have letters := three (by simp [Instr.form])
    simp only [operandTexts, closingText, lineBody_length_three, semicolon, regText_length]
    omega
  | lshf rd rs o | rshfl rd rs o | rshfa rd rs o =>
    have imm := immText_length b (by decide) o 1 (by decide) (by decide)
    simp only [operandTexts, closingText, lineBody_length_three, regText_length, List.length_nil]
    omega
  | lea rd o =>
    have imm := immText_length b (by decide) o 3 (by decide) (by decide)
    simp only [operandTexts, closingText, lineBody_length_two, semicolon, regText_length]
    omega
  | notReg rd rs =>
    simp only [operandTexts, closingText, lineBody_length_two, semicolon, regText_length]
    omega
  | jsrr rb | jmp rb =>
    simp only [operandTexts, closingText, lineBody_length_one, semicolon, regText_length]
    omega
  | rti =>
    have letters := three (by simp [Instr.form])
    simp only [operandTexts, closingText, lineBody_length_nil, semicolon]
    omega
  | ret =>
    have letters := three (by simp [Instr.form])
    simp only [operandTexts, closingText, lineBody_length_nil, List.length_nil, letters]
    decide
  | trap v =>
    have closing := closingText_length_trap v
    simp only [operandTexts, lineBody_length_one, hexText_length]
    omega

end Sys2Proof.Machine
end

section
/-! The statements about every line (40_datapath.md R70 to R75) and about every instruction's transaction (60_exceptions.md R107, R108). -/

namespace Sys2Proof.Machine

/-- Every instruction's line is whole (40_datapath.md R72, R73). -/
theorem lineText_ok (b : Build) (i : Instr) : LineOk (lineText b i) := by
  obtain ⟨least, most, _⟩ := lineText_length b i
  refine ⟨least, most, List.getLast?_concat, ?_⟩
  rw [lineText, List.dropLast_concat]
  intro c hc
  obtain body | rfl := lineText_chars b i c hc
  · exact body.facts.1
  · decide

/-- Settles O13: `lineText_ok` and `lineText_length` for every word, and the three lines that reach the bounds. -/
theorem everyLineIsWhole : Obligations.EveryLineIsWhole := by
  refine ⟨fun b w t line => ?_, ⟨ascii "RET\n", by decide, by decide⟩, ⟨ascii "RTI ;\n", by decide, by decide⟩,
    ⟨ascii "ADD R7, R7, #-16 ;\n", by decide, by decide⟩⟩
  rw [line_eq_lineText line]
  exact ⟨lineText_ok b (decode w), (lineText_length b (decode w)).2.2⟩

/-- Settles O29: every instruction's meaning is its family's transaction on its line, and the line is whole. -/
theorem noFieldDecoderRaises : Obligations.NoFieldDecoderRaises := by
  intro i s accepted
  exact ⟨lineText s.build i, lineText_ok s.build i, by rw [exec_eq_transact, transact_of_accepted _ _ accepted]⟩

/-- The forms without a `;` are those with an empty closing (40_datapath.md R71). -/
theorem closingText_eq_nil_iff (i : Instr) : closingText i = [] ↔ i.form ∈ [Form.lshf, .rshfl, .rshfa, .ret] := by
  cases i with
  | ret | lshf | rshfl | rshfa => simp [closingText, Instr.form]
  | trap v => simp [closingText, Instr.form, ascii]
  | _ => simp [closingText, Instr.form, ascii]

/-- A word with TRAP's form is TRAP with its low byte (46_trap.md R103). -/
theorem decode_of_trapForm {w : Word} (form : (decode w).form = .trap) : decode w = .trap (w.extractLsb 7 0) := by
  have family : familyOf (extract w).opcode = .trap := by rw [← family_selectForm, ← decode, form]; rfl
  exact selectForm_of_soleForm (by rw [family]; rfl)

/-- A closing with a `;` that is not TRAP's is the `;` alone. -/
theorem closingText_of_not_trap {i : Instr} (closes : i.form ∉ [Form.lshf, .rshfl, .rshfa, .ret]) (notTrap : i.form ≠ .trap) :
    closingText i = ascii " ;" ++ [] := by
  cases i with
  | ret | lshf | rshfl | rshfa => exact absurd (by simp [Instr.form]) closes
  | trap v => exact absurd rfl notTrap
  | _ => rfl

/-- Settles O15: the body and a name hold no `;`, so the only one is that of the closing. -/
theorem semicolonIsMissingExactlyOnShiftsAndRet : Obligations.SemicolonIsMissingExactlyOnShiftsAndRet := by
  intro b w t line
  obtain rfl := line_eq_lineText line
  have body : (0x3B#8 : Byte) ∉ bodyText b (decode w) := fun mem => (bodyText_chars b _ _ mem).facts.2.1 rfl
  refine ⟨fun bareForm => ?_, fun closes => ?_⟩
  · rw [lineText, (closingText_eq_nil_iff _).mpr bareForm, List.append_nil]
    simp [body, lf]
  · by_cases trap : (decode w).form = .trap
    · have name : (0x3B#8 : Byte) ∉ trapNameText (w.extractLsb 7 0) := fun mem =>
        (bodyAlphabet_chars _ (trapNameText_chars _ _ mem)).2.1 rfl
      refine ⟨bodyText b (decode w), trapNameText (w.extractLsb 7 0) ++ [lf], ?_, body, ?_, fun h => absurd trap h, fun _ => rfl⟩
      · rw [lineText, decode_of_trapForm trap, closingText]
        simp only [List.append_assoc]
      · simp [name, lf]
    · refine ⟨bodyText b (decode w), [lf], ?_, body, by decide, fun _ => rfl, fun h => absurd h trap⟩
      rw [lineText, closingText_of_not_trap closes trap]
      simp only [List.append_assoc, List.nil_append]

/-- Settles O16: the row's mnemonic stands first, then the space before the operands, the space before the `;`, or the LF. -/
theorem lineBeginsWithItsFormsMnemonic : Obligations.LineBeginsWithItsFormsMnemonic := by
  intro b w t line
  rw [line_eq_lineText line, lineText, bodyText, lineBody]
  cases operands : operandTexts b (decode w) with
  | cons op ops =>
    refine ⟨0x20#8, join (ascii ", ") (op :: ops) ++ closingText (decode w) ++ [lf], ?_, .inl rfl⟩
    simp [ascii]
  | nil =>
    obtain empty | ⟨name, closing, _⟩ := closingText_cases (decode w)
    · exact ⟨lf, [], by simp [empty], .inr rfl⟩
    · refine ⟨0x20#8, 0x3B#8 :: name ++ [lf], ?_, .inl rfl⟩
      simp [closing, ascii]

/-- Settles O27: TRAP's transaction on its line, with the name behind the `;` exactly when the vector has one. -/
theorem trapRendersItsLine : Obligations.TrapRendersItsLine := by
  refine ⟨fun s v accepted => ⟨fun name named => ?_, fun unnamed => ?_⟩, fun w row => ?_, by decide, by decide, by decide,
    by decide, by decide⟩
  · have line : lineTrap s.build.hexUpper v = ascii "TRAP " ++ hexText s.build.hexUpper v ++ ascii " ; " ++ name ++ [lf] := by
      rw [lineTrap, named]
    exact line ▸ transact_of_accepted .trap _ accepted
  · have line : lineTrap s.build.hexUpper v = semi (ascii "TRAP") [hexText s.build.hexUpper v] := by
      rw [lineTrap_eq, lineText, closingText, trapNameText, unnamed, List.append_nil]
      rfl
    exact line ▸ transact_of_accepted .trap _ accepted
  · exact decode_of_opcodeRow .trap row rfl rfl

/-- Settles O30: the dispatcher alone decides between an error and a line, in a decode as in an instruction's transaction. -/
theorem undefinedOpcodeIsRaisedExactlyForRejectedOpcodes : Obligations.UndefinedOpcodeIsRaisedExactlyForRejectedOpcodes := by
  refine ⟨fun b w k => ?_, fun i s rejected => ?_, fun d l => ⟨rfl, rfl⟩, fun w => ?_⟩
  · rw [decodeToResult_eq_lineText]
    split_ifs with rejected
    · simp [rejected, eq_comm]
    · simp [rejected]
  · rw [exec_eq_transact, transact_eq, if_pos rejected]
  · exact ⟨_, (decodeToResult_eq_lineText Build.hardware w).trans (if_neg List.not_mem_nil)⟩

end Sys2Proof.Machine
end

section
/-! The events of a medium (60_exceptions.md R109; log entry 2), and what a step is: the current lane's turn, then the end of its slot. -/

namespace Sys2Proof.Machine

/-! ## Read attempts and events -/

/-- An attempt that ends takes the first event of the medium and leaves the others. -/
theorem eventsOf_of_readAttempt {f : Bool} {m rest : List MediumItem} {e : Event} (read : readAttempt f m = some (e, rest)) :
    eventsOf f m = e :: eventsOf f rest ∧ rest.length < m.length := by
  unfold readAttempt at read
  split at read
  case h_6 | h_7 | h_8 | h_9 => nomatch read
  all_goals
    obtain ⟨rfl, rfl⟩ := Prod.mk.inj (Option.some.inj read)
    exact ⟨rfl, by simp⟩

/-- A pause passed loses no event. -/
theorem eventsOf_passPause (f : Bool) (m : List MediumItem) : eventsOf f (passPause m) = eventsOf f m := by
  unfold passPause
  split <;> rfl

/-- An attempt that does not end has a pause in its way or nothing to end it. -/
theorem readAttempt_none_cases {f : Bool} {m : List MediumItem} (read : readAttempt f m = none) :
    (∃ rest, m = .pause :: rest) ∨ (∃ b rest, m = .byte b :: .pause :: rest) ∨ (∃ b, m = [.byte b]) ∨ m = [] := by
  unfold readAttempt at read
  split at read
  case h_6 b rest => exact .inr (.inl ⟨b, rest, rfl⟩)
  case h_7 rest => exact .inl ⟨rest, rfl⟩
  case h_8 b => exact .inr (.inr (.inl ⟨b, rfl⟩))
  case h_9 => exact .inr (.inr (.inr rfl))
  all_goals exact absurd read (by simp)

/-- Settles O37: the attempt's cases against the medium's events. -/
theorem readAttemptsYieldTheEventsInOrder : Obligations.ReadAttemptsYieldTheEventsInOrder := by
  refine fun f m => ⟨fun e rest => eventsOf_of_readAttempt, fun read => ⟨eventsOf_passPause f m, ?_⟩⟩
  obtain ⟨rest, rfl⟩ | ⟨b, rest, rfl⟩ | ⟨b, rfl⟩ | rfl := readAttempt_none_cases read
  · exact ⟨fun _ => by simp [passPause], fun no => absurd (by simp) no⟩
  · exact ⟨fun _ => by simp [passPause], fun no => absurd (by simp) no⟩
  · exact ⟨fun pause => absurd pause (by simp), fun _ => rfl⟩
  · exact ⟨fun pause => absurd pause (by simp), fun _ => rfl⟩

end Sys2Proof.Machine
end

section
/-! One lane's turn before it ends, and what its end does (log entry 1). -/

namespace Sys2Proof.Machine

/-! ## Turns -/

/-- Every decode is a good result: a whole line or the one error (60_exceptions.md R106, R108). -/
theorem decodeToResult_ok (b : Build) (w : Word) : ResultOk (decodeToResult b w) := by
  rw [decodeToResult_eq_lineText]
  split_ifs
  · rfl
  · exact lineText_ok b (decode w)

/-- A lane through a turn: its output port stays, and its queue stays or has one more good result, due in `LATENCY` cycles. -/
structure Lane.Turned (latency : Nat) (l l' : Lane) : Prop where
  outValid : l'.outValid = l.outValid
  outStatus : l'.outStatus = l.outStatus
  outLen : l'.outLen = l.outLen
  outText : l'.outText = l.outText
  queue : l'.queue = l.queue ∨ ∃ r, ResultOk r ∧ l'.queue = l.queue ++ [⟨latency, r⟩]

/-- What the current lane's turn makes of a state before the turn ends: a word presented in a reset cycle, a word decoded, the reads ended, or a
turn without an event. -/
inductive LaneTurn (s : State) : State → Prop
  | dropped {w : Word} {rest : List MediumItem} (next : s.nextEvent = some (.word w, rest)) (reset : s.resetLine = true) :
      LaneTurn s (s.presentWord w rest)
  | decoded {w : Word} {rest : List MediumItem} (next : s.nextEvent = some (.word w, rest)) (released : s.resetLine = false) :
      LaneTurn s ((s.presentWord w rest).start (decodeToResult s.build w))
  | ended {e : Event} {f : FinalStatus} {rest : List MediumItem} (terminal : e.terminal = some f)
      (next : s.nextEvent = some (e, rest)) : LaneTurn s (s.endReads f rest)
  | waited (next : s.nextEvent = none) : LaneTurn s s.waitTurn

/-- The run has not ended with an error. -/
def State.NotFatal (s : State) : Prop := ∀ k, s.finalStatus ≠ some (.fatal k)

/-- A run that ended with an error answers its fault (60_exceptions.md R111). -/
theorem step_of_fatal {s : State} {k : ErrorKind} (fatal : s.finalStatus = some (.fatal k)) : step s = .fault k.toFault := by
  rw [step, slotStep, fatal]

/-- In every state the current lane has a turn to take. -/
theorem exists_laneTurn (s : State) : ∃ u, LaneTurn s u := by
  cases next : s.nextEvent with
  | none => exact ⟨_, .waited next⟩
  | some event =>
    obtain ⟨e, rest⟩ := event
    cases terminal : e.terminal with
    | some f => exact ⟨_, .ended terminal next⟩
    | none =>
      obtain ⟨w, rfl⟩ : ∃ w, e = .word w := by cases e with
        | word w => exact ⟨w, rfl⟩
        | endOfInput | truncated | readFail => nomatch terminal
      cases reset : s.resetLine with
      | true => exact ⟨_, .dropped next reset⟩
      | false => exact ⟨_, .decoded next reset⟩

/-- A run that has not ended with an error answers the end of its current lane's turn. -/
theorem LaneTurn.answer {s u : State} (turn : LaneTurn s u) (notFatal : s.NotFatal) : step s = .next u.endSlot := by
  have takesTurn : step s = laneTurn s := by
    rw [step, slotStep]
    cases status : s.finalStatus with
    | none => rfl
    | some f => cases f with
      | clean => rfl
      | fatal k => exact absurd status (notFatal k)
  rw [takesTurn, laneTurn]
  cases turn with
  | @dropped w rest next reset =>
    rw [next]
    exact if_pos reset
  | @decoded w rest next released =>
    rw [next]
    refine (if_neg (ne_true_of_eq_false released)).trans ?_
    rw [exec_decode]
    rfl
  | @ended e f rest terminal next =>
    rw [next]
    cases e with
    | word w => nomatch terminal
    | endOfInput | truncated | readFail =>
      obtain rfl := Option.some.inj terminal
      rfl
  | waited next => rw [next]

theorem step_of_notFatal {s : State} (notFatal : s.NotFatal) : ∃ u, LaneTurn s u ∧ step s = .next u.endSlot := by
  obtain ⟨u, turn⟩ := exists_laneTurn s
  exact ⟨u, turn, turn.answer notFatal⟩

/-- A step that answers a next state took a turn and ended it. -/
theorem turn_of_step {s t : State} (answer : step s = .next t) : s.NotFatal ∧ ∃ u, LaneTurn s u ∧ t = u.endSlot := by
  have notFatal : s.NotFatal := fun k fatal => by
    rw [step_of_fatal fatal] at answer
    nomatch answer
  obtain ⟨u, turn, taken⟩ := step_of_notFatal notFatal
  exact ⟨notFatal, u, turn, Host.Outcome.next.inj (answer.symm.trans taken)⟩

section
variable {s u : State} (turn : LaneTurn s u)
include turn

/-! What a turn leaves alone before its end. -/

theorem LaneTurn.build : u.build = s.build := by cases turn <;> rfl

theorem LaneTurn.resetLine : u.resetLine = s.resetLine := by cases turn <;> rfl

theorem LaneTurn.slot : u.slot = s.slot := by cases turn <;> rfl

theorem LaneTurn.emitted : u.emitted = s.emitted := by cases turn <;> rfl

theorem LaneTurn.finalStatus : u.finalStatus = s.finalStatus := by cases turn <;> rfl

/-- A turn touches the current lane only, and turns it. -/
theorem LaneTurn.lanes : ∃ g, u.lanes = s.lanes.modify s.slot g ∧ ∀ l, Lane.Turned s.build.latency l (g l) := by
  cases turn with
  | @dropped w => exact ⟨Lane.driveWord w, rfl, fun l => ⟨rfl, rfl, rfl, rfl, .inl rfl⟩⟩
  | @decoded w => exact ⟨_, List.modify_modify_eq _ _ _ _, fun l => ⟨rfl, rfl, rfl, rfl, .inr ⟨_, decodeToResult_ok _ w, rfl⟩⟩⟩
  | ended | waited => exact ⟨Lane.driveNothing s.drawn, rfl, fun l => ⟨rfl, rfl, rfl, rfl, .inl rfl⟩⟩

theorem LaneTurn.lanes_length : u.lanes.length = s.lanes.length := by
  obtain ⟨g, lanes, _⟩ := turn.lanes
  rw [lanes, List.length_modify]

theorem LaneTurn.otherLane {k : Nat} (other : k ≠ s.slot) : u.lanes[k]? = s.lanes[k]? := by
  obtain ⟨g, lanes, _⟩ := turn.lanes
  rw [lanes, List.getElem?_modify_ne _ _ other.symm]

theorem LaneTurn.currentLane {l : Lane} (lane : s.lanes[s.slot]? = some l) :
    ∃ l', u.lanes[s.slot]? = some l' ∧ Lane.Turned s.build.latency l l' := by
  obtain ⟨g, lanes, turned⟩ := turn.lanes
  exact ⟨g l, by rw [lanes, List.getElem?_modify_eq, lane]; rfl, turned l⟩

/-- A lane after a turn is as before, or the current one, turned. -/
theorem LaneTurn.lane_cases {k : Nat} {l' : Lane} (lane : u.lanes[k]? = some l') :
    (k ≠ s.slot ∧ s.lanes[k]? = some l') ∨ (k = s.slot ∧ ∃ l, s.lanes[k]? = some l ∧ Lane.Turned s.build.latency l l') := by
  obtain current | other := eq_or_ne k s.slot
  · obtain ⟨l, before⟩ : ∃ l, s.lanes[k]? = some l := by
      obtain ⟨inside, _⟩ := List.getElem?_eq_some_iff.mp lane
      rw [turn.lanes_length] at inside
      exact ⟨s.lanes[k], List.getElem?_eq_getElem inside⟩
    obtain ⟨l'', after, turned⟩ := turn.currentLane (current ▸ before)
    obtain rfl := Option.some.inj (lane.symm.trans (current ▸ after))
    exact .inr ⟨current, l, before, turned⟩
  · exact .inl ⟨other, (turn.otherLane other).symm.trans lane⟩

end

/-- A turn without a word presents nothing in the current lane. -/
theorem LaneTurn.lanes_of_noWord {s u : State} (turn : LaneTurn s u) (noWord : ∀ w rest, s.nextEvent ≠ some (.word w, rest)) :
    u.lanes = s.lanes.modify s.slot (Lane.driveNothing s.drawn) := by
  cases turn with
  | dropped next | decoded next => exact absurd next (noWord _ _)
  | ended | waited => rfl

end Sys2Proof.Machine
end

section
/-! The end of a cycle, field by field (60_exceptions.md R110, 70_reset_and_hazards.md R122). -/

namespace Sys2Proof.Machine

/-- No transaction is in flight when every queue is empty. -/
theorem State.drained_iff (s : State) : s.drained = true ↔ ∀ l ∈ s.lanes, l.queue = [] := by
  simp [State.drained]

/-! ## Going through results -/

/-- Going through results adds lines from among them at the end of the lines already out. -/
theorem takeResults_out (out : List (List Byte)) (rs : List Result) :
    ∃ new, (takeResults out rs).1 = out ++ new ∧ new.length ≤ rs.length ∧ ∀ t ∈ new, .line t ∈ rs := by
  induction rs generalizing out with
  | nil => exact ⟨[], by simp [takeResults]⟩
  | cons r rs ih =>
    cases r with
    | error k => exact ⟨[], by simp [takeResults]⟩
    | line t =>
      obtain ⟨new, lines, count, among⟩ := ih (out ++ [t])
      refine ⟨t :: new, by simp [takeResults, lines], by simpa using count, ?_⟩
      simpa using fun t' ht' => .inr (among t' ht')

/-- Going through results ends with a status only at an error among them. -/
theorem takeResults_status {out : List (List Byte)} {rs : List Result} {f : FinalStatus} (ends : (takeResults out rs).2 = some f) :
    ∃ k, f = .fatal k ∧ .error k ∈ rs := by
  induction rs generalizing out with
  | nil => nomatch ends
  | cons r rs ih =>
    cases r with
    | error k => exact ⟨k, (Option.some.inj ends).symm, by simp⟩
    | line t =>
      obtain ⟨k, fatal, among⟩ := ih ends
      exact ⟨k, fatal, List.mem_cons_of_mem _ among⟩

/-- Going through two lists of results, one behind the other: the second counts if the first had no error. -/
theorem takeResults_append (out : List (List Byte)) (rs rs' : List Result) :
    takeResults out (rs ++ rs') =
      if (takeResults out rs).2 = none then takeResults (takeResults out rs).1 rs' else takeResults out rs := by
  induction rs generalizing out with
  | nil => rfl
  | cons r rs ih =>
    cases r with
    | line t => exact ih (out ++ [t])
    | error k => rfl

/-! ## Taking the outputs of a cycle -/

/-- A run that is over takes nothing (60_exceptions.md R111). -/
theorem State.takeOutputList_of_ended {s : State} (ended : s.finalStatus ≠ none) (os : List (Option Result)) :
    os.foldl State.takeOutput s = s := by
  induction os with
  | nil => rfl
  | cons o os ih =>
    obtain ⟨_, running, _⟩ | ⟨_, running, _⟩ | ⟨_, same⟩ := s.takeOutput_cases o
    · exact absurd running ended
    · exact absurd running ended
    · rw [List.foldl_cons, same, ih]

/-- A running collaborator goes through the presented results in order (60_exceptions.md R110). -/
theorem State.takeOutputList_of_running {s : State} (running : s.finalStatus = none) (os : List (Option Result)) :
    ((os.foldl State.takeOutput s).emitted, (os.foldl State.takeOutput s).finalStatus) =
      takeResults s.emitted (os.filterMap id) := by
  induction os generalizing s with
  | nil => rw [List.foldl_nil, running]; rfl
  | cons o os ih =>
    rw [List.foldl_cons]
    obtain ⟨t, _, rfl, takes⟩ | ⟨k, _, rfl, takes⟩ | ⟨idle, same⟩ := s.takeOutput_cases o
    · rw [takes]
      exact ih (s := { s with emitted := s.emitted ++ [t] }) running
    · rw [takes, State.takeOutputList_of_ended (Option.some_ne_none _)]
      rfl
    · obtain rfl : o = none := idle.resolve_left (not_not_intro running)
      rw [same, ih running]
      rfl

/-- Settling keeps a status, and otherwise gives the reads' once nothing is in flight. -/
theorem State.settle_finalStatus (s : State) :
    s.settle.finalStatus = s.finalStatus.or (if s.drained then s.readsEnded else none) := by
  obtain ⟨running, drained, settles⟩ | ⟨active, same⟩ := s.settle_cases
  · rw [settles, running, drained]; rfl
  · rw [same]
    cases status : s.finalStatus with
    | some f => rfl
    | none => rw [active.resolve_left (not_not_intro status)]; rfl

/-! ## The end of a cycle -/

@[simp] theorem State.tick_build (s : State) : s.tick.build = s.build := by
  obtain ⟨build, _⟩ := s.tick_frame
  exact build

@[simp] theorem State.tick_resetLine (s : State) : s.tick.resetLine = s.resetLine := by
  obtain ⟨_, resetLine, _⟩ := s.tick_frame
  exact resetLine

@[simp] theorem State.tick_medium (s : State) : s.tick.medium = s.medium := by
  obtain ⟨_, _, medium, _⟩ := s.tick_frame
  exact medium

@[simp] theorem State.tick_readsEnded (s : State) : s.tick.readsEnded = s.readsEnded := by
  obtain ⟨_, _, _, readsEnded, _⟩ := s.tick_frame
  exact readsEnded

@[simp] theorem State.tick_lanes (s : State) : s.tick.lanes = clockLanes Lane.clock s.drawn s.lanes := by
  obtain ⟨_, _, _, _, lanes, _⟩ := s.tick_frame
  exact lanes

@[simp] theorem State.tick_slot (s : State) : s.tick.slot = 0 := by
  obtain ⟨_, _, _, _, _, slot, _⟩ := s.tick_frame
  exact slot

/-- The lanes clocked at the end of a cycle, before anything is taken. -/
def State.clocked (s : State) : State :=
  { s with lanes := clockLanes Lane.clock s.drawn s.lanes, drawn := s.drawn + s.lanes.length, slot := 0 }

theorem State.tick_eq (s : State) : s.tick = s.clocked.takeOutputs.settle := rfl

/-- Taking outputs touches no lane, so it leaves in flight what was in flight. -/
theorem State.tick_drained (s : State) : s.tick.drained = s.clocked.takeOutputs.drained := by
  obtain ⟨_, _, _, _, lanes, _⟩ := s.clocked.takeOutputs.settle_frame
  rw [State.tick_eq, State.drained, lanes, State.drained]

/-- A run that is over stays as it ended. -/
theorem State.tick_of_ended {s : State} {f : FinalStatus} (ended : s.finalStatus = some f) :
    s.tick.emitted = s.emitted ∧ s.tick.finalStatus = some f := by
  have nothing : s.clocked.takeOutputs = s.clocked :=
    State.takeOutputList_of_ended (s := s.clocked) (show s.finalStatus ≠ none by simp [ended]) _
  obtain ⟨_, _, _, _, _, _, emitted, _⟩ := s.clocked.settle_frame
  rw [State.tick_eq, nothing, emitted, State.settle_finalStatus]
  exact ⟨rfl, show s.finalStatus.or _ = _ by rw [ended]; rfl⟩

/-- What the lanes present at the end of a cycle, in lane order. -/
def State.presented (s : State) : List Result := s.tick.lanes.filterMap Lane.output

/-- A running collaborator goes through what the clocked lanes present; with no error among it, the run is over if nothing is left in flight and
the reads have ended (60_exceptions.md R110). -/
theorem State.tick_of_running {s : State} (running : s.finalStatus = none) :
    s.tick.emitted = (takeResults s.emitted s.presented).1 ∧
    s.tick.finalStatus = ((takeResults s.emitted s.presented).2).or (if s.tick.drained then s.readsEnded else none) := by
  have outputs : (s.clocked.lanes.map Lane.output).filterMap id = s.presented := by
    rw [List.filterMap_map, State.presented, State.tick_lanes]; rfl
  have takes : (s.clocked.takeOutputs.emitted, s.clocked.takeOutputs.finalStatus) = takeResults s.emitted s.presented :=
    outputs ▸ State.takeOutputList_of_running (s := s.clocked) running (s.clocked.lanes.map Lane.output)
  obtain ⟨emitted, status⟩ := Prod.mk.injEq .. ▸ takes
  obtain ⟨_, _, _, _, _, _, keeps, _⟩ := s.clocked.takeOutputs.settle_frame
  obtain ⟨_, _, _, reads, _⟩ := State.takeOutputList_frame (s.clocked.lanes.map Lane.output) s.clocked
  rw [← takes, State.tick_drained, State.tick_eq, keeps, State.settle_finalStatus]
  exact ⟨rfl, by rw [State.takeOutputs, reads]; rfl⟩

/-! ## The end of a reset cycle -/

@[simp] theorem State.resetTick_build (s : State) : s.resetTick.build = s.build := by
  obtain ⟨build, _⟩ := s.resetTick_frame
  exact build

@[simp] theorem State.resetTick_resetLine (s : State) : s.resetTick.resetLine = false := by
  obtain ⟨_, resetLine, _⟩ := s.resetTick_frame
  exact resetLine

@[simp] theorem State.resetTick_medium (s : State) : s.resetTick.medium = s.medium := by
  obtain ⟨_, _, medium, _⟩ := s.resetTick_frame
  exact medium

@[simp] theorem State.resetTick_readsEnded (s : State) : s.resetTick.readsEnded = s.readsEnded := by
  obtain ⟨_, _, _, readsEnded, _⟩ := s.resetTick_frame
  exact readsEnded

@[simp] theorem State.resetTick_lanes (s : State) : s.resetTick.lanes = clockLanes Lane.clear s.drawn s.lanes := by
  obtain ⟨_, _, _, _, lanes, _⟩ := s.resetTick_frame
  exact lanes

@[simp] theorem State.resetTick_slot (s : State) : s.resetTick.slot = 0 := by
  obtain ⟨_, _, _, _, _, slot, _⟩ := s.resetTick_frame
  exact slot

@[simp] theorem State.resetTick_emitted (s : State) : s.resetTick.emitted = s.emitted := by
  obtain ⟨_, _, _, _, _, _, emitted, _⟩ := s.resetTick_frame
  exact emitted

/-- Every lane after all lanes have been clocked or cleared is one of them, clocked or cleared. -/
theorem mem_clockLanes {f : Nat → Lane → Lane} {d : Nat} {ls : List Lane} {l : Lane} (mem : l ∈ clockLanes f d ls) :
    ∃ l₀ ∈ ls, ∃ d', l = f d' l₀ := by
  obtain ⟨k, hk⟩ := List.mem_iff_getElem?.mp mem
  rw [clockLanes_getElem?, Option.map_eq_some_iff] at hk
  obtain ⟨l₀, at_k, rfl⟩ := hk
  exact ⟨l₀, List.mem_of_getElem? at_k, d + k, rfl⟩

/-- A reset cycle leaves nothing in flight (70_reset_and_hazards.md R122). -/
theorem State.resetTick_drained (s : State) : s.resetTick.drained = true := by
  rw [State.drained_iff, State.resetTick_lanes]
  intro l hl
  obtain ⟨_, _, _, rfl⟩ := mem_clockLanes hl
  rfl

/-- A run that a reset cycle finds without a status ends with the reads', if they have ended (log entry 20). -/
theorem State.resetTick_finalStatus (s : State) : s.resetTick.finalStatus = s.finalStatus.or s.readsEnded := by
  have drained := s.resetTick_drained
  obtain ⟨_, _, _, _, lanes, _⟩ := State.settle_frame
    { s with lanes := clockLanes Lane.clear s.drawn s.lanes, drawn := s.drawn + s.lanes.length, slot := 0, resetLine := false }
  rw [State.resetTick, State.drained, lanes, ← State.drained] at drained
  rw [State.resetTick, State.settle_finalStatus, drained]
  rfl

/-! ## The end of a turn -/

@[simp] theorem State.endSlot_build (s : State) : s.endSlot.build = s.build := by
  obtain ⟨_, h⟩ | ⟨_, _, h⟩ | ⟨_, _, h⟩ := s.endSlot_cases <;> simp [h]

@[simp] theorem State.endSlot_medium (s : State) : s.endSlot.medium = s.medium := by
  obtain ⟨_, h⟩ | ⟨_, _, h⟩ | ⟨_, _, h⟩ := s.endSlot_cases <;> simp [h]

@[simp] theorem State.endSlot_readsEnded (s : State) : s.endSlot.readsEnded = s.readsEnded := by
  obtain ⟨_, h⟩ | ⟨_, _, h⟩ | ⟨_, _, h⟩ := s.endSlot_cases <;> simp [h]

end Sys2Proof.Machine
end

section
/-! Steps: faults, the frame of a step, reset, and turns without a word. -/

namespace Sys2Proof.Machine

/-- The end of a turn, by the state before it. -/
theorem LaneTurn.endSlot_cases {s u : State} (turn : LaneTurn s u) :
    (s.slot + 1 < s.build.laneCount ∧ u.endSlot = { u with slot := u.slot + 1 }) ∨
    (s.build.laneCount ≤ s.slot + 1 ∧ s.resetLine = true ∧ u.endSlot = u.resetTick) ∨
    (s.build.laneCount ≤ s.slot + 1 ∧ s.resetLine = false ∧ u.endSlot = u.tick) := by
  rw [← turn.slot, ← turn.build, ← turn.resetLine]
  exact u.endSlot_cases

/-- Settles O38: a fatal end is answered with its fault, and any other state takes a turn. -/
theorem stepsFaultExactlyAfterAFatalEnd : Obligations.StepsFaultExactlyAfterAFatalEnd := by
  have turns : ∀ s : State, (∃ k, s.finalStatus = some (.fatal k) ∧ step s = .fault k.toFault) ∨ ∃ t, step s = .next t := by
    intro s
    by_cases fatal : ∃ k, s.finalStatus = some (.fatal k)
    · obtain ⟨k, ended⟩ := fatal
      exact .inl ⟨k, ended, step_of_fatal ended⟩
    · obtain ⟨u, _, answer⟩ := step_of_notFatal (fun k ended => fatal ⟨k, ended⟩)
      exact .inr ⟨u.endSlot, answer⟩
  refine ⟨fun s k => step_of_fatal, fun s r faults => ?_, fun s r refuses => ?_⟩
  · obtain ⟨k, ended, answer⟩ | ⟨t, answer⟩ := turns s
    · exact ⟨k, ended, Host.Outcome.fault.inj (faults.symm.trans answer)⟩
    · nomatch faults.symm.trans answer
  · obtain ⟨k, _, answer⟩ | ⟨t, answer⟩ := turns s
    · nomatch refuses.symm.trans answer
    · nomatch refuses.symm.trans answer

/-- Settles O40: neither a turn nor its end writes the build. -/
theorem noStepChangesTheBuild : Obligations.NoStepChangesTheBuild := by
  intro s t answer
  obtain ⟨_, u, turn, rfl⟩ := turn_of_step answer
  rw [State.endSlot_build, turn.build]

/-- Settles O42: a turn touches its own lane only, and the cycle's end clocks or clears each lane by itself. -/
theorem lanesShareNothing : Obligations.LanesShareNothing := by
  intro s t k l answer other lane
  obtain ⟨_, u, turn, rfl⟩ := turn_of_step answer
  have untouched : u.lanes[k]? = some l := (turn.otherLane other).trans lane
  obtain ⟨within, h⟩ | ⟨last, reset, h⟩ | ⟨last, released, h⟩ := turn.endSlot_cases
  · exact ⟨fun _ => by rw [h]; exact untouched, fun last => absurd last (by omega), fun last => absurd last (by omega)⟩
  · refine ⟨fun within => absurd within (by omega), fun _ released => absurd (reset.symm.trans released) (by decide),
      fun _ _ => ⟨u.drawn + k, ?_⟩⟩
    rw [h, State.resetTick_lanes, clockLanes_getElem?, untouched]
    rfl
  · refine ⟨fun within => absurd within (by omega), fun _ _ => ⟨u.drawn + k, ?_⟩,
      fun _ reset => absurd (released.symm.trans reset) (by decide)⟩
    rw [h, State.tick_lanes, clockLanes_getElem?, untouched]
    rfl

/-- What a lane function keeps of every lane is kept wherever it is applied. -/
theorem map_modify_same {α : Type} {f : Lane → α} {g : Lane → Lane} (keeps : ∀ l, f (g l) = f l) (k : Nat) (ls : List Lane) :
    (ls.modify k g).map f = ls.map f := by
  refine List.ext_getElem? fun j => ?_
  rw [List.getElem?_map, List.getElem?_map, List.getElem?_modify]
  split_ifs <;> simp [keeps, Function.comp_def]

/-- A turn in a reset cycle starts nothing (70_reset_and_hazards.md R124). -/
theorem LaneTurn.queues_of_reset {s u : State} (turn : LaneTurn s u) (reset : s.resetLine = true) :
    u.lanes.map Lane.queue = s.lanes.map Lane.queue := by
  cases turn with
  | decoded _ released => exact absurd (reset.symm.trans released) (by decide)
  | dropped => exact map_modify_same (f := Lane.queue) (g := Lane.driveWord _) (fun _ => rfl) _ _
  | ended | waited => exact map_modify_same (f := Lane.queue) (g := Lane.driveNothing _) (fun _ => rfl) _ _

/-- Settles O44: a turn in a reset cycle starts nothing, and the cycle's last one clears every lane and releases reset. -/
theorem resetCycleDiscardsWhatIsInFlight : Obligations.ResetCycleDiscardsWhatIsInFlight := by
  intro s reset notFatal
  obtain ⟨u, turn, answer⟩ := step_of_notFatal notFatal
  refine ⟨u.endSlot, answer, by rw [State.endSlot_build, turn.build], ?_⟩
  obtain ⟨within, h⟩ | ⟨last, _, h⟩ | ⟨_, released, _⟩ := turn.endSlot_cases
  · rw [h]
    exact ⟨turn.emitted, fun _ => ⟨turn.resetLine.trans reset, turn.queues_of_reset reset⟩, fun last => absurd last (by omega)⟩
  · rw [h, State.resetTick_emitted]
    refine ⟨turn.emitted, fun within => absurd within (by omega), fun _ =>
      ⟨u.resetTick_resetLine, u.resetTick_slot, ?_, fun l hl => ?_⟩⟩
    · rw [State.resetTick_lanes, clockLanes_length, turn.lanes_length]
    · rw [State.resetTick_lanes] at hl
      obtain ⟨_, _, _, rfl⟩ := mem_clockLanes hl
      exact ⟨rfl, rfl⟩
  · exact absurd (reset.symm.trans released) (by decide)

/-- Settles O41: lines join `out` at the end of a cycle only, each from one lane's port. -/
theorem emittedLinesStay : Obligations.EmittedLinesStay := by
  intro s t inv answer
  obtain ⟨_, u, turn, rfl⟩ := turn_of_step answer
  rw [← turn.emitted]
  obtain ⟨_, h⟩ | ⟨_, _, h⟩ | ⟨last, _, h⟩ := turn.endSlot_cases
  · exact ⟨[], by rw [h, List.append_nil], Nat.zero_le _, fun _ => rfl⟩
  · exact ⟨[], by rw [h, State.resetTick_emitted, List.append_nil], Nat.zero_le _, fun _ => rfl⟩
  · rw [h]
    cases status : u.finalStatus with
    | some f => exact ⟨[], by rw [(State.tick_of_ended status).1, List.append_nil], Nat.zero_le _, fun _ => rfl⟩
    | none =>
      obtain ⟨new, lines, count, _⟩ := takeResults_out u.emitted u.presented
      refine ⟨new, (State.tick_of_running status).1.trans lines, count.trans ?_, fun within => absurd within (by omega)⟩
      calc u.presented.length ≤ u.tick.lanes.length := List.length_filterMap_le _ _
        _ = s.build.laneCount := by rw [State.tick_lanes, clockLanes_length, turn.lanes_length, inv.lanes_count]

end Sys2Proof.Machine
end

section
/-! The step for each kind of next event (60_exceptions.md R109, R118). -/

namespace Sys2Proof.Machine

/-- The run reads while neither its reads nor the run have ended (60_exceptions.md R110). -/
theorem State.reading_iff (s : State) : s.reading = true ↔ s.readsEnded = none ∧ s.finalStatus = none := by
  simp [State.reading]

/-- A next event is one that a reading run's attempt ends in. -/
theorem State.nextEvent_eq_some {s : State} {e : Event} {rest : List MediumItem} :
    s.nextEvent = some (e, rest) ↔
      s.readsEnded = none ∧ s.finalStatus = none ∧ readAttempt s.build.firstByteIsHigh s.medium = some (e, rest) := by
  rw [State.nextEvent]
  split_ifs with reading
  · simp [(s.reading_iff.mp reading).1, (s.reading_iff.mp reading).2]
  · have stopped := mt s.reading_iff.mpr reading
    constructor
    · exact fun none => nomatch none
    · exact fun ⟨reads, running, _⟩ => absurd ⟨reads, running⟩ stopped

theorem State.nextEvent_unique {s : State} {e e' : Event} {rest rest' : List MediumItem} (next : s.nextEvent = some (e, rest))
    (next' : s.nextEvent = some (e', rest')) : e = e' ∧ rest = rest' :=
  Prod.mk.inj (Option.some.inj (next.symm.trans next'))

/-- A run with a next event has no status yet. -/
theorem State.notFatal_of_nextEvent {s : State} {e : Event} {rest : List MediumItem} (next : s.nextEvent = some (e, rest)) :
    s.NotFatal := fun k fatal => by
  obtain ⟨_, running, _⟩ := State.nextEvent_eq_some.mp next
  exact Option.some_ne_none _ (fatal.symm.trans running)

/-- With a word next and reset released, the step presents the word, starts its decode, and ends the turn. -/
theorem step_of_word {s : State} {w : Word} {rest : List MediumItem} (next : s.nextEvent = some (.word w, rest))
    (released : s.resetLine = false) :
    step s = .next ((s.presentWord w rest).start (decodeToResult s.build w)).endSlot :=
  (LaneTurn.decoded next released).answer (State.notFatal_of_nextEvent next)

/-! ## Lanes and queues across the end of a turn -/

/-- The clock takes the oldest transaction away at most. -/
theorem Lane.clock_results (d : Nat) (l : Lane) :
    ((l.clock d).queue.map InFlight.result).Sublist (l.queue.map InFlight.result) := by
  obtain ⟨r, rest, queue, clocked⟩ | ⟨_, clocked⟩ := l.clock_cases d
  · rw [clocked, queue, Lane.present_queue, List.map_map]
    exact List.sublist_cons_self _ _
  · rw [clocked, Lane.presentNothing_queue, List.map_map]
    exact List.Sublist.refl _

/-- The end of a turn leaves a lane's input port, and no transaction in its queue that was not there before. -/
theorem State.endSlot_lane {u : State} {k : Nat} {l : Lane} (lane : u.lanes[k]? = some l) :
    ∃ l', u.endSlot.lanes[k]? = some l' ∧ l'.inValid = l.inValid ∧ l'.inWord = l.inWord ∧
      (l'.queue.map InFlight.result).Sublist (l.queue.map InFlight.result) := by
  obtain ⟨_, h⟩ | ⟨_, _, h⟩ | ⟨_, _, h⟩ := u.endSlot_cases
  · exact ⟨l, h ▸ lane, rfl, rfl, .refl _⟩
  · exact ⟨l.clear (u.drawn + k), by rw [h, State.resetTick_lanes, clockLanes_getElem?, lane]; rfl, rfl, rfl, List.nil_sublist _⟩
  · exact ⟨l.clock (u.drawn + k), by rw [h, State.tick_lanes, clockLanes_getElem?, lane]; rfl, l.clock_inValid _, l.clock_inWord _,
      l.clock_results _⟩

/-- Equal queues are in flight alike. -/
theorem State.drained_of_queues {s u : State} (queues : u.lanes.map Lane.queue = s.lanes.map Lane.queue) : u.drained = s.drained := by
  have byQueues : ∀ s : State, s.drained = (s.lanes.map Lane.queue).all List.isEmpty := fun s => by
    rw [State.drained, List.all_map]; rfl
  rw [byQueues, byQueues, queues]

/-- At the end of a cycle with nothing in flight every lane presents nothing, and the run takes the status its reads ended with, if any. -/
theorem State.tick_of_drained {u : State} (drained : u.drained = true) :
    u.tick.drained = true ∧ u.tick.emitted = u.emitted ∧ u.tick.finalStatus = u.finalStatus.or u.readsEnded ∧
      ∀ l ∈ u.tick.lanes, l.output = none := by
  have silent : ∀ l ∈ u.tick.lanes, l.queue = [] ∧ l.output = none := by
    intro l hl
    rw [State.tick_lanes] at hl
    obtain ⟨l₀, mem, d, rfl⟩ := mem_clockLanes hl
    have empty := (u.drained_iff.mp drained) l₀ mem
    rw [Lane.clock_empty d empty]
    exact ⟨empty, l₀.presentNothing_output d⟩
  have drained' : u.tick.drained = true := u.tick.drained_iff.mpr fun l hl => (silent l hl).1
  have presented : u.presented = [] := List.filterMap_eq_nil_iff.mpr fun l hl => (silent l hl).2
  refine ⟨drained', ?_, ?_, fun l hl => (silent l hl).2⟩ <;>
  cases status : u.finalStatus with
  | some f => simp [State.tick_of_ended status]
  | none => simp [State.tick_of_running status, presented, takeResults, drained']

/-- The end of a turn with nothing in flight. -/
theorem LaneTurn.endSlot_of_drained {s u : State} (turn : LaneTurn s u) (drained : u.drained = true) :
    u.endSlot.drained = true ∧ u.endSlot.emitted = s.emitted ∧
      u.endSlot.finalStatus = if s.slot + 1 < s.build.laneCount then s.finalStatus else s.finalStatus.or u.readsEnded := by
  rw [← turn.emitted, ← turn.finalStatus]
  obtain ⟨within, h⟩ | ⟨last, _, h⟩ | ⟨last, _, h⟩ := turn.endSlot_cases
  · rw [h, if_pos within]
    exact ⟨drained, rfl, rfl⟩
  · rw [h, if_neg (by omega)]
    exact ⟨u.resetTick_drained, u.resetTick_emitted, u.resetTick_finalStatus⟩
  · obtain ⟨drained', emitted, status, _⟩ := State.tick_of_drained drained
    rw [h, if_neg (by omega)]
    exact ⟨drained', emitted, status⟩

/-- A turn without a word starts nothing. -/
theorem LaneTurn.queues_of_noWord {s u : State} (turn : LaneTurn s u) (noWord : ∀ w rest, s.nextEvent ≠ some (.word w, rest)) :
    u.lanes.map Lane.queue = s.lanes.map Lane.queue := by
  rw [turn.lanes_of_noWord noWord]
  exact map_modify_same (f := Lane.queue) (g := Lane.driveNothing s.drawn) (fun _ => rfl) _ _

/-- A turn without a word leaves the current lane with `in_valid` 0, and nothing new in its queue (10_state.md R18). -/
theorem LaneTurn.currentLane_of_noWord {s u : State} (turn : LaneTurn s u) (noWord : ∀ w rest, s.nextEvent ≠ some (.word w, rest))
    {l : Lane} (lane : s.lanes[s.slot]? = some l) :
    ∃ l', u.endSlot.lanes[s.slot]? = some l' ∧ l'.inValid = false ∧
      (l'.queue.map InFlight.result).Sublist (l.queue.map InFlight.result) := by
  have driven : u.lanes[s.slot]? = some (l.driveNothing s.drawn) := by
    rw [turn.lanes_of_noWord noWord, List.getElem?_modify_eq, lane]
    rfl
  obtain ⟨l', lane', valid, _, results⟩ := State.endSlot_lane driven
  exact ⟨l', lane', valid, results⟩

/-- Settles O56: a turn without a word drives `in_valid` 0, and its end takes transactions away at most. -/
theorem turnWithoutAWordPresentsNothing : Obligations.TurnWithoutAWordPresentsNothing := by
  intro s notFatal noWord
  obtain ⟨u, turn, answer⟩ := step_of_notFatal notFatal
  exact ⟨u.endSlot, answer, fun l lane => turn.currentLane_of_noWord noWord lane⟩

/-- Each of the four ways a medium ends the reads gives its event (60_exceptions.md R109, R112). -/
theorem terminalEvent_of_medium {high : Bool} {m rest : List MediumItem} {b : Byte} {c : IoCause} {f : FinalStatus}
    (medium : (m = .endOfInput :: rest ∧ f = .clean) ∨ (m = .byte b :: .endOfInput :: rest ∧ f = .fatal .truncatedInput) ∨
      (m = .failure c :: rest ∧ f = .fatal (.ioFailure c)) ∨ (m = .byte b :: .failure c :: rest ∧ f = .fatal (.ioFailure c))) :
    ∃ e : Event, e.terminal = some f ∧ readAttempt high m = some (e, rest) := by
  obtain ⟨rfl, rfl⟩ | ⟨rfl, rfl⟩ | ⟨rfl, rfl⟩ | ⟨rfl, rfl⟩ := medium
  · exact ⟨.endOfInput, rfl, rfl⟩
  · exact ⟨.truncated, rfl, rfl⟩
  · exact ⟨.readFail c, rfl, rfl⟩
  · exact ⟨.readFail c, rfl, rfl⟩

/-- Settles O36: the four media end in a terminating event, whose turn ends the reads and starts nothing. -/
theorem terminatingEventsEndTheReads : Obligations.TerminatingEventsEndTheReads := by
  intro s rest b c f reading medium
  obtain ⟨reads, running⟩ := s.reading_iff.mp reading
  obtain ⟨e, terminal, read⟩ := terminalEvent_of_medium (high := s.build.firstByteIsHigh) medium
  have next : s.nextEvent = some (e, rest) := State.nextEvent_eq_some.mpr ⟨reads, running, read⟩
  have turn : LaneTurn s (s.endReads f rest) := .ended terminal next
  have noWord : ∀ w rest, s.nextEvent ≠ some (.word w, rest) := fun w rest' word => by
    obtain ⟨rfl, rfl⟩ := State.nextEvent_unique next word
    nomatch terminal
  refine ⟨_, turn.answer (State.notFatal_of_nextEvent next), by simp, by simp, fun l lane => ?_, fun within => ?_, fun last drained => ?_⟩
  · obtain ⟨l', lane', valid, _⟩ := turn.currentLane_of_noWord noWord lane
    exact ⟨l', lane', valid⟩
  · obtain ⟨_, h⟩ | ⟨last, _⟩ | ⟨last, _⟩ := turn.endSlot_cases
    · rw [h]
      exact ⟨rfl, running⟩
    · exact absurd last (by omega)
    · exact absurd last (by omega)
  · have drained' := (State.drained_of_queues (turn.queues_of_noWord noWord)).trans drained
    obtain ⟨_, emitted, status⟩ := turn.endSlot_of_drained drained'
    exact ⟨emitted, by rw [status, if_neg (by omega), running]; rfl⟩

/-- Settles O39: an idle turn waits, and its end finds nothing in flight. -/
theorem idleBlockIdles : Obligations.IdleBlockIdles := by
  intro s inv drained none notFatal reads
  have turn : LaneTurn s s.waitTurn := .waited none
  have noWord : ∀ w rest, s.nextEvent ≠ some (.word w, rest) := by simp [none]
  have drained' := (State.drained_of_queues (turn.queues_of_noWord noWord)).trans drained
  obtain ⟨drained'', emitted, status⟩ := turn.endSlot_of_drained drained'
  refine ⟨_, turn.answer notFatal, drained'', emitted, ?_, fun last l hl => ?_⟩
  · rw [status, State.waitTurn_readsEnded, reads]
    split_ifs
    · rfl
    · cases s.finalStatus <;> rfl
  · obtain ⟨within, _⟩ | ⟨_, _, h⟩ | ⟨_, _, h⟩ := turn.endSlot_cases
    · exact absurd within (by omega)
    · rw [h, State.resetTick_lanes] at hl
      obtain ⟨l₀, _, d, rfl⟩ := mem_clockLanes hl
      exact l₀.presentNothing_output d
    · rw [h] at hl
      exact (State.tick_of_drained drained').2.2.2 l hl

/-! ## A word next -/

/-- Settles O34: two bytes next are a word, whose turn presents it and starts its decode. -/
theorem stepRunsTheDecodedWord : Obligations.StepRunsTheDecodedWord := by
  intro s b0 b1 rest reading released medium
  obtain ⟨reads, running⟩ := s.reading_iff.mp reading
  have next : s.nextEvent = some (.word (assemble s.build.firstByteIsHigh b0 b1), rest) :=
    State.nextEvent_eq_some.mpr ⟨reads, running, by rw [medium]; rfl⟩
  refine ⟨_, exec_decode _ _, step_of_word next released, rfl, fun l lane => ?_⟩
  refine ⟨(l.driveWord (assemble s.build.firstByteIsHigh b0 b1)).accept s.build.latency _, State.start_currentLane _ ?_, rfl, rfl⟩
  rw [State.presentWord_slot, State.presentWord_lanes, List.getElem?_modify_eq, lane]
  rfl

/-- A word placed for the next step is its next event (log entry 3). -/
theorem nextEvent_loadWord (s : State) (w : Word) : (s.loadWord w).nextEvent = some (.word w, s.medium) :=
  State.nextEvent_eq_some.mpr ⟨rfl, rfl, readAttempt_wordBytes s.build.firstByteIsHigh w s.medium⟩

/-- Settles O35: the placed word is the next event, with reset released. -/
theorem placedWordRunsNext : Obligations.PlacedWordRunsNext := by
  intro s w
  have placed : s.withFetchWord 16 w.toNat = s.loadWord w := by
    rw [State.withFetchWord, Nat.mod_eq_of_lt w.isLt, BitVec.ofNat_toNat, BitVec.setWidth_eq]
  rw [placed]
  exact ⟨_, exec_decode w _, step_of_word (nextEvent_loadWord s w) rfl⟩

/-! ## After reset -/

/-- Every lane after reset is one of `Lane.afterReset` (10_state.md R25). -/
theorem mem_afterReset_lanes {b : Build} {l : Lane} (mem : l ∈ (State.afterReset b).lanes) : ∃ n, l = Lane.afterReset n := by
  obtain ⟨n, _, rfl⟩ := List.mem_map.mp mem
  exact ⟨n, rfl⟩

/-- Settles O43: the fields of the state after reset, and this hardware's parameters, as they are defined. -/
theorem resetStateIsIdle : Obligations.ResetStateIsIdle := by
  refine ⟨fun b => ⟨rfl, by simp [State.afterReset], fun l hl => ?_, rfl, rfl⟩, rfl, rfl, rfl, rfl, rfl, rfl⟩
  obtain ⟨n, rfl⟩ := mem_afterReset_lanes hl
  exact ⟨rfl, rfl, rfl⟩

/-- The invariant holds of every build right after reset. -/
theorem inv_afterReset (b : Build) : (State.afterReset b).Inv where
  lanes_count := by simp [State.afterReset]
  slot_lt := b.lanes_pos
  ports := fun l hl => by
    obtain ⟨n, rfl⟩ := mem_afterReset_lanes hl
    exact ⟨by simp [Lane.afterReset], fun valid => nomatch valid⟩
  queues := fun k l lane => by
    obtain ⟨n, rfl⟩ := mem_afterReset_lanes (List.mem_of_getElem? lane)
    exact ⟨.nil, fun e mem => nomatch mem⟩
  emitted := fun t mem => nomatch mem
  reads := fun ended => nomatch ended
  clean := fun ended => nomatch ended
  fatal := fun k ended => nomatch ended

/-- Settles O45. -/
theorem invHoldsAfterReset : Obligations.InvHoldsAfterReset := ⟨inv_afterReset, inv_afterReset Build.hardware⟩

end Sys2Proof.Machine
end

section
/-! A result on its port, and a lane through its clock edges (10_state.md R19, R20, R24). -/

namespace Sys2Proof.Machine

/-! ## The output port -/

/-- A line of at most 19 bytes stands in `out_text` before the free bytes. -/
theorem padText_take_line {t : List Byte} (fits : t.length ≤ lineMax) (d : Nat) : (padText d t).take t.length = t := by
  rw [padText_take d t t.length le_rfl fits, List.take_length]

/-- The length of a line is on `out_len` as it is. -/
theorem outLen_toNat {t : List Byte} (fits : t.length ≤ lineMax) : (BitVec.ofNat 5 t.length).toNat = t.length := by
  rw [BitVec.toNat_ofNat]
  exact Nat.mod_eq_of_lt (by have : t.length ≤ 19 := fits; omega)

/-- A presented line: status 0, its length, its bytes (10_state.md R19, R20). -/
theorem Lane.present_line {t : List Byte} (ok : LineOk t) (d : Nat) (l : Lane) :
    (l.present d (.line t)).outLen.toNat = t.length ∧ (l.present d (.line t)).outText.take t.length = t ∧
      (l.present d (.line t)).output = some (.line t) ∧ (l.present d (.line t)).PortOk := by
  have ⟨least, fits, _⟩ := ok
  have len : (l.present d (.line t)).outLen.toNat = t.length := outLen_toNat fits
  have text : (l.present d (.line t)).outText.take t.length = t := padText_take_line fits d
  have read : (l.present d (.line t)).outText.take (l.present d (.line t)).outLen.toNat = t := by rw [len, text]
  have some : (l.present d (.line t)).outLen ≠ 0 := fun zero => by
    rw [zero] at len
    simp at len
    omega
  refine ⟨len, text, ?_, padText_length d t, fun _ => ⟨Nat.zero_le 1, len.trans_le fits, ?_, fun _ => read.symm ▸ ok⟩⟩
  · simp only [Lane.output, Lane.present_outValid, Lane.present_outStatus, Result.status, if_true, read]
  · exact iff_of_false some (not_not_intro rfl)

/-- A presented error: status 1, length 0 (decision D11). -/
theorem Lane.present_undefinedOpcode (d : Nat) (l : Lane) :
    (l.present d (.error .undefinedOpcode)).output = some (.error .undefinedOpcode) ∧
      (l.present d (.error .undefinedOpcode)).PortOk := by
  refine ⟨rfl, padText_length d [], fun _ => ⟨le_refl 1, Nat.zero_le 19, ?_, fun zero => ?_⟩⟩
  · exact iff_of_true rfl (show (1 : BitVec 2) ≠ 0 by decide)
  · exact absurd zero (show (1 : BitVec 2) ≠ 0 by decide)

/-- A good result presented reads back, from a well-formed port. -/
theorem Lane.present_ok {r : Result} (ok : ResultOk r) (d : Nat) (l : Lane) :
    (l.present d r).output = some r ∧ (l.present d r).PortOk := by
  match r, ok with
  | .line t, ok => exact (Lane.present_line ok d l).2.2
  | .error _, rfl => exact Lane.present_undefinedOpcode d l

/-- A port that presents nothing is well formed. -/
theorem Lane.presentNothing_ok (d : Nat) (l : Lane) : (l.presentNothing d).PortOk :=
  ⟨padText_length d [], fun valid => nomatch valid⟩

/-- Settles O47: a line and the one error, each at its port. -/
theorem presentedResultReadsBack : Obligations.PresentedResultReadsBack := by
  intro d l r ok
  obtain ⟨output, port⟩ := Lane.present_ok ok d l
  refine ⟨port, rfl, output, ?_, ?_⟩
  · rintro t rfl
    obtain ⟨len, text, _⟩ := Lane.present_line ok d l
    exact ⟨rfl, len, text⟩
  · rintro k rfl
    obtain rfl : k = .undefinedOpcode := ok
    exact ⟨rfl, rfl⟩

/-- What a reader takes from a well-formed port is a good result. -/
theorem Lane.output_ok {l : Lane} (port : l.PortOk) {r : Result} (output : l.output = some r) : ResultOk r := by
  obtain ⟨_, valid⟩ := port
  rw [Lane.output] at output
  split_ifs at output with presents status
  · obtain ⟨_, _, _, line⟩ := valid presents
    obtain rfl := Option.some.inj output
    exact line status
  · obtain rfl := Option.some.inj output
    rfl

/-! ## The queue -/

/-- Ageing a queue in which nothing is due brings every transaction one cycle nearer. -/
theorem age_ok {q : List InFlight} {bound : Nat} (waits : ∀ e ∈ q, 0 < e.wait) (increasing : q.Pairwise fun a b => a.wait < b.wait)
    (due : ∀ e ∈ q, e.wait < bound + 1 ∧ ResultOk e.result) :
    (q.map InFlight.age).Pairwise (fun a b => a.wait < b.wait) ∧ ∀ e ∈ q.map InFlight.age, e.wait < bound ∧ ResultOk e.result := by
  constructor
  · rw [List.pairwise_map]
    refine increasing.imp_of_mem fun {a b} ha _ less => ?_
    have := waits a ha
    rw [InFlight.age_wait, InFlight.age_wait]
    omega
  · intro e he
    obtain ⟨e, mem, rfl⟩ := List.mem_map.mp he
    obtain ⟨near, ok⟩ := due e mem
    have := waits e mem
    exact ⟨by rw [InFlight.age_wait]; omega, ok⟩

/-- If the oldest transaction of a lane is not due yet, none is. -/
theorem Lane.waits_pos {l : Lane} {bound : Nat} (queue : l.QueueOk bound) (waiting : ∀ e rest, l.queue = e :: rest → e.wait ≠ 0) :
    ∀ e ∈ l.queue, 0 < e.wait := by
  obtain ⟨increasing, _⟩ := queue
  intro e he
  cases queue : l.queue with
  | nil => rw [queue] at he; nomatch he
  | cons first rest =>
    have positive : 0 < first.wait := Nat.pos_of_ne_zero (waiting first rest queue)
    rw [queue] at he increasing
    obtain rfl | later := List.mem_cons.mp he
    · exact positive
    · exact positive.trans ((List.pairwise_cons.mp increasing).1 e later)

/-- Behind a transaction that is due, none other is. -/
theorem Lane.waits_pos_of_due {l : Lane} {bound : Nat} (queue : l.QueueOk bound) {r : Result} {rest : List InFlight}
    (oldest : l.queue = ⟨0, r⟩ :: rest) : ∀ e ∈ rest, 0 < e.wait := by
  obtain ⟨increasing, _⟩ := queue
  rw [oldest] at increasing
  exact (List.pairwise_cons.mp increasing).1

/-- The clock keeps a queue in order and shortens its waits by one. -/
theorem Lane.clock_queueOk {l : Lane} {bound : Nat} (queue : l.QueueOk (bound + 1)) (d : Nat) : (l.clock d).QueueOk bound := by
  have ⟨increasing, due⟩ := queue
  obtain ⟨r, rest, oldest, clocked⟩ | ⟨waiting, clocked⟩ := l.clock_cases d
  · rw [oldest] at increasing due
    rw [clocked]
    exact age_ok (Lane.waits_pos_of_due queue oldest) (List.pairwise_cons.mp increasing).2 fun e he => due e (List.mem_cons_of_mem _ he)
  · rw [clocked]
    exact age_ok (Lane.waits_pos queue waiting) increasing due

/-- The clock leaves a well-formed port, whatever the port was. -/
theorem Lane.clock_portOk {l : Lane} {bound : Nat} (queue : l.QueueOk bound) (d : Nat) : (l.clock d).PortOk := by
  obtain ⟨_, due⟩ := queue
  obtain ⟨r, rest, oldest, clocked⟩ | ⟨_, clocked⟩ := l.clock_cases d
  · rw [clocked]
    exact (Lane.present_ok (due ⟨0, r⟩ (by simp [oldest])).2 d _).2
  · rw [clocked]
    exact Lane.presentNothing_ok d _

/-- A transaction accepted behind others that are due sooner. -/
theorem Lane.accept_queueOk {l : Lane} {latency : Nat} (queue : l.QueueOk latency) {r : Result} (ok : ResultOk r) :
    (l.accept latency r).QueueOk (latency + 1) := by
  obtain ⟨increasing, due⟩ := queue
  constructor
  · rw [Lane.accept_queue, List.pairwise_append]
    refine ⟨increasing, List.pairwise_singleton _ _, fun e he e' he' => ?_⟩
    obtain rfl := List.mem_singleton.mp he'
    exact (due e he).1
  · rw [Lane.accept_queue, List.forall_mem_append, List.forall_mem_singleton]
    exact ⟨fun e he => ⟨(due e he).1.trans (Nat.lt_succ_self _), (due e he).2⟩, Nat.lt_succ_self _, ok⟩

/-- A queue within a bound is within a larger one. -/
theorem Lane.queueOk_mono {l : Lane} {bound bound' : Nat} (queue : l.QueueOk bound) (le : bound ≤ bound') : l.QueueOk bound' :=
  ⟨queue.1, fun e he => ⟨(queue.2 e he).1.trans_le le, (queue.2 e he).2⟩⟩

/-- Strictly increasing waits below a bound are at most as many. -/
theorem Lane.queue_length_le {l : Lane} {bound : Nat} (queue : l.QueueOk bound) : l.queue.length ≤ bound := by
  obtain ⟨increasing, due⟩ := queue
  have distinct : (l.queue.map InFlight.wait).Nodup := (List.pairwise_map.mpr increasing).imp fun less => less.ne
  have below : l.queue.map InFlight.wait ⊆ List.range bound := fun w hw => by
    obtain ⟨e, he, rfl⟩ := List.mem_map.mp hw
    exact List.mem_range.mpr (due e he).1
  simpa using (List.subperm_of_subset distinct below).length_le

/-- Settles O50: the invariant's queues have increasing waits, below `LATENCY` between cycles and below `LATENCY` + 1 within one. -/
theorem queueHoldsAtMostLatency : Obligations.QueueHoldsAtMostLatency := by
  intro s inv l hl
  obtain ⟨k, lane⟩ := List.mem_iff_getElem?.mp hl
  have queue := inv.queues k l lane
  refine ⟨Lane.queue_length_le (Lane.queueOk_mono queue ?_), fun first => Lane.queue_length_le (Lane.queueOk_mono queue ?_)⟩
  · split_ifs <;> omega
  · rw [if_neg (by omega)]

end Sys2Proof.Machine
end

section
/-! Every step keeps the invariant. -/

namespace Sys2Proof.Machine

/-- A turned lane has its port as before. -/
theorem Lane.Turned.portOk {latency : Nat} {l l' : Lane} (turned : Lane.Turned latency l l') (port : l.PortOk) : l'.PortOk := by
  rw [Lane.PortOk, turned.outValid, turned.outStatus, turned.outLen, turned.outText]
  exact port

/-- A turned lane's queue is in order, with a transaction due in `LATENCY` cycles at the most. -/
theorem Lane.Turned.queueOk {latency : Nat} {l l' : Lane} (turned : Lane.Turned latency l l') (queue : l.QueueOk latency) :
    l'.QueueOk (latency + 1) := by
  obtain same | ⟨r, ok, more⟩ := turned.queue
  · rw [Lane.QueueOk, same]
    exact Lane.queueOk_mono queue (Nat.le_succ _)
  · rw [Lane.QueueOk, more]
    exact Lane.accept_queueOk queue ok

/-- The invariant with the first `n` lanes counted as having had their turn. -/
structure State.InvAt (n : Nat) (s : State) : Prop where
  lanes_count : s.lanes.length = s.build.laneCount
  ports : ∀ l ∈ s.lanes, l.PortOk
  queues : ∀ (k : Nat) (l : Lane), s.lanes[k]? = some l → l.QueueOk (if k < n then s.build.latency + 1 else s.build.latency)
  emitted : ∀ t ∈ s.emitted, LineOk t
  reads : s.readsEnded ≠ some (.fatal .undefinedOpcode)
  clean : s.finalStatus = some .clean → s.readsEnded = some .clean ∧ s.drained = true
  fatal : ∀ k, s.finalStatus = some (.fatal k) → k = .undefinedOpcode ∨ s.readsEnded = some (.fatal k)

/-- A terminating event ends the reads with no `UndefinedOpcode`, which only the core raises (60_exceptions.md R106, R110). -/
theorem terminal_ne_undefinedOpcode {e : Event} {f : FinalStatus} (terminal : e.terminal = some f) : f ≠ .fatal .undefinedOpcode := by
  rintro rfl
  cases e <;> simp [Event.terminal] at terminal

/-- The status the reads have ended with after a turn. -/
theorem LaneTurn.readsEnded_cases {s u : State} (turn : LaneTurn s u) :
    u.readsEnded = s.readsEnded ∨ ∃ (e : Event) (f : FinalStatus), e.terminal = some f ∧ s.finalStatus = none ∧ u.readsEnded = some f := by
  cases turn with
  | dropped | decoded | waited => exact .inl rfl
  | ended terminal next =>
    obtain ⟨_, running, _⟩ := State.nextEvent_eq_some.mp next
    exact .inr ⟨_, _, terminal, running, rfl⟩

/-- A run that is over reads no event. -/
theorem State.nextEvent_of_ended {s : State} {f : FinalStatus} (ended : s.finalStatus = some f) : s.nextEvent = none := by
  cases next : s.nextEvent with
  | none => rfl
  | some er =>
    obtain ⟨_, running, _⟩ := State.nextEvent_eq_some.mp next
    nomatch ended.symm.trans running

/-- A turn counts its lane among those that have had their turn. -/
theorem LaneTurn.invAt {s u : State} (turn : LaneTurn s u) (notFatal : s.NotFatal) (inv : s.Inv) : u.InvAt (s.slot + 1) where
  lanes_count := by rw [turn.lanes_length, turn.build, inv.lanes_count]
  ports := fun l' hl' => by
    obtain ⟨k, lane⟩ := List.mem_iff_getElem?.mp hl'
    obtain ⟨_, before⟩ | ⟨_, l, before, turned⟩ := turn.lane_cases lane
    · exact inv.ports l' (List.mem_of_getElem? before)
    · exact turned.portOk (inv.ports l (List.mem_of_getElem? before))
  queues := fun k l' lane => by
    rw [turn.build]
    obtain ⟨other, before⟩ | ⟨rfl, l, before, turned⟩ := turn.lane_cases lane
    · have same : k < s.slot + 1 ↔ k < s.slot := by omega
      rw [if_congr same rfl rfl]
      exact inv.queues k l' before
    · have queue := inv.queues s.slot l before
      rw [if_neg (Nat.lt_irrefl _)] at queue
      rw [if_pos (Nat.lt_succ_self _)]
      exact turned.queueOk queue
  emitted := turn.emitted ▸ inv.emitted
  reads := by
    obtain same | ⟨e, f, terminal, _, ended⟩ := turn.readsEnded_cases
    · exact same ▸ inv.reads
    · exact fun undefined => terminal_ne_undefinedOpcode terminal (Option.some.inj (ended.symm.trans undefined))
  clean := fun ended => by
    rw [turn.finalStatus] at ended
    obtain ⟨reads, drained⟩ := inv.clean ended
    have noWord : ∀ w rest, s.nextEvent ≠ some (.word w, rest) := by simp [State.nextEvent_of_ended ended]
    refine ⟨?_, (State.drained_of_queues (turn.queues_of_noWord noWord)).trans drained⟩
    obtain same | ⟨_, _, _, running, _⟩ := turn.readsEnded_cases
    · exact same.trans reads
    · nomatch ended.symm.trans running
  fatal := fun k ended => absurd (turn.finalStatus ▸ ended) (notFatal k)

/-- Within a cycle the next lane's turn begins. -/
theorem State.inv_of_nextSlot {u : State} (inv : u.InvAt (u.slot + 1)) (within : u.slot + 1 < u.build.laneCount) :
    State.Inv { u with slot := u.slot + 1 } :=
  { inv with slot_lt := within }

/-- A reset cycle leaves empty queues, nothing presented, and a status that the reads gave. -/
theorem State.inv_resetTick {u : State} {n : Nat} (inv : u.InvAt n) : u.resetTick.Inv where
  lanes_count := by rw [State.resetTick_lanes, clockLanes_length, State.resetTick_build, inv.lanes_count]
  slot_lt := by rw [State.resetTick_slot, State.resetTick_build]; exact u.build.lanes_pos
  ports := fun l hl => by
    rw [State.resetTick_lanes] at hl
    obtain ⟨l₀, _, d, rfl⟩ := mem_clockLanes hl
    exact Lane.presentNothing_ok d _
  queues := fun k l lane => by
    have empty := (u.resetTick.drained_iff.mp u.resetTick_drained) l (List.mem_of_getElem? lane)
    rw [Lane.QueueOk, empty]
    exact ⟨.nil, fun e mem => nomatch mem⟩
  emitted := by rw [State.resetTick_emitted]; exact inv.emitted
  reads := by rw [State.resetTick_readsEnded]; exact inv.reads
  clean := fun ended => by
    rw [State.resetTick_finalStatus, Option.or_eq_some_iff] at ended
    rw [State.resetTick_readsEnded]
    obtain before | ⟨_, reads⟩ := ended
    · exact ⟨(inv.clean before).1, u.resetTick_drained⟩
    · exact ⟨reads, u.resetTick_drained⟩
  fatal := fun k ended => by
    rw [State.resetTick_finalStatus, Option.or_eq_some_iff] at ended
    rw [State.resetTick_readsEnded]
    obtain before | ⟨_, reads⟩ := ended
    · exact inv.fatal k before
    · exact .inr reads

/-- The ports after the end of a cycle are well formed. -/
theorem State.InvAt.tick_ports {u : State} {n : Nat} (inv : u.InvAt n) : ∀ l ∈ u.tick.lanes, l.PortOk := by
  intro l hl
  rw [State.tick_lanes] at hl
  obtain ⟨l₀, mem, d, rfl⟩ := mem_clockLanes hl
  obtain ⟨k, lane⟩ := List.mem_iff_getElem?.mp mem
  exact Lane.clock_portOk (inv.queues k l₀ lane) d

/-- What the lanes present at the end of a cycle are good results. -/
theorem State.InvAt.presented_ok {u : State} {n : Nat} (inv : u.InvAt n) : ∀ r ∈ u.presented, ResultOk r := by
  intro r hr
  obtain ⟨l, hl, output⟩ := List.mem_filterMap.mp hr
  exact Lane.output_ok (inv.tick_ports l hl) output

/-- How a run can be over after the end of a cycle: it was before, an error was presented, or the reads have ended and nothing is in flight. -/
theorem State.InvAt.tick_finalStatus_cases {u : State} {n : Nat} (inv : u.InvAt n) {f : FinalStatus} (ended : u.tick.finalStatus = some f) :
    u.finalStatus = some f ∨ f = .fatal .undefinedOpcode ∨ (u.tick.drained = true ∧ u.readsEnded = some f) := by
  cases status : u.finalStatus with
  | some g => exact .inl ((State.tick_of_ended status).2.symm.trans ended)
  | none =>
    rw [(State.tick_of_running status).2, Option.or_eq_some_iff] at ended
    obtain error | ⟨_, reads⟩ := ended
    · obtain ⟨k, rfl, among⟩ := takeResults_status error
      obtain rfl : k = .undefinedOpcode := inv.presented_ok _ among
      exact .inr (.inl rfl)
    · split_ifs at reads with drained
      exact .inr (.inr ⟨drained, reads⟩)

/-- The end of a cycle shortens every wait by one, so all lanes count as before their turn. -/
theorem State.inv_tick {u : State} (inv : u.InvAt u.build.laneCount) : u.tick.Inv where
  lanes_count := by rw [State.tick_lanes, clockLanes_length, State.tick_build, inv.lanes_count]
  slot_lt := by rw [State.tick_slot, State.tick_build]; exact u.build.lanes_pos
  ports := inv.tick_ports
  queues := fun k l lane => by
    rw [State.tick_lanes, clockLanes_getElem?, Option.map_eq_some_iff] at lane
    obtain ⟨l₀, before, rfl⟩ := lane
    have inside : k < u.build.laneCount := inv.lanes_count ▸ (List.getElem?_eq_some_iff.mp before).1
    have queue := inv.queues k l₀ before
    rw [if_pos inside] at queue
    rw [State.tick_slot, if_neg (Nat.not_lt_zero k), State.tick_build]
    exact Lane.clock_queueOk queue _
  emitted := by
    cases status : u.finalStatus with
    | some f => rw [(State.tick_of_ended status).1]; exact inv.emitted
    | none =>
      obtain ⟨new, lines, _, among⟩ := takeResults_out u.emitted u.presented
      rw [(State.tick_of_running status).1, lines]
      exact List.forall_mem_append.mpr ⟨inv.emitted, fun t ht => inv.presented_ok _ (among t ht)⟩
  reads := by rw [State.tick_readsEnded]; exact inv.reads
  clean := fun ended => by
    rw [State.tick_readsEnded]
    obtain before | undefined | ⟨drained, reads⟩ := inv.tick_finalStatus_cases ended
    · obtain ⟨reads, drained⟩ := inv.clean before
      exact ⟨reads, (State.tick_of_drained drained).1⟩
    · nomatch undefined
    · exact ⟨reads, drained⟩
  fatal := fun k ended => by
    rw [State.tick_readsEnded]
    obtain before | undefined | ⟨_, reads⟩ := inv.tick_finalStatus_cases ended
    · exact inv.fatal k before
    · exact .inl (FinalStatus.fatal.inj undefined)
    · exact .inr reads

/-- The end of a turn restores the invariant. -/
theorem State.inv_endSlot {u : State} (slot_lt : u.slot < u.build.laneCount) (inv : u.InvAt (u.slot + 1)) : u.endSlot.Inv := by
  obtain ⟨within, h⟩ | ⟨_, _, h⟩ | ⟨last, _, h⟩ := u.endSlot_cases
  · exact h ▸ State.inv_of_nextSlot inv within
  · exact h ▸ State.inv_resetTick inv
  · have all : u.slot + 1 = u.build.laneCount := by omega
    exact h ▸ State.inv_tick (all ▸ inv)

/-- Settles O46: a turn counts its lane as served (`LaneTurn.invAt`), and the turn's end restores the invariant (`State.inv_endSlot`). -/
theorem everyStepKeepsInv : Obligations.EveryStepKeepsInv := by
  intro s t inv answer
  obtain ⟨notFatal, u, turn, rfl⟩ := turn_of_step answer
  have slot_lt : u.slot < u.build.laneCount := by rw [turn.slot, turn.build]; exact inv.slot_lt
  exact State.inv_endSlot slot_lt (turn.slot ▸ turn.invAt notFatal inv)

end Sys2Proof.Machine
end

section
/-! A lane as a delay line of `LATENCY` cycles, and a word's output on time (10_state.md R20, 20_memory.md R37). -/

namespace Sys2Proof.Machine

/-! ## The delay line -/

/-- The queue that presents a schedule: what each of the next cycles is to present, the first of them in `n` cycles. -/
def scheduled : Nat → List (Option Result) → List InFlight
  | _, [] => []
  | n, none :: rest => scheduled (n + 1) rest
  | n, some r :: rest => ⟨n, r⟩ :: scheduled (n + 1) rest

/-- What a lane accepts in a cycle joins the end of its schedule. -/
theorem scheduled_append (n : Nat) (xs ys : List (Option Result)) :
    scheduled n (xs ++ ys) = scheduled n xs ++ scheduled (n + xs.length) ys := by
  induction xs generalizing n with
  | nil => rfl
  | cons x xs ih =>
    have shift : n + (xs.length + 1) = n + 1 + xs.length := by omega
    cases x with
    | none => simpa [scheduled, shift] using ih (n + 1)
    | some r => simpa [scheduled, shift] using ih (n + 1)

/-- Ageing brings a schedule one cycle nearer. -/
theorem scheduled_age (n : Nat) (xs : List (Option Result)) : (scheduled (n + 1) xs).map InFlight.age = scheduled n xs := by
  induction xs generalizing n with
  | nil => rfl
  | cons x xs ih =>
    cases x with
    | none => exact ih (n + 1)
    | some r => exact congrArg (⟨n, r⟩ :: ·) (ih (n + 1))

/-- Every wait in a schedule that starts in `n` cycles is `n` or more. -/
theorem scheduled_wait_ge {n : Nat} {xs : List (Option Result)} : ∀ e ∈ scheduled n xs, n ≤ e.wait := by
  induction xs generalizing n with
  | nil => exact fun e mem => nomatch mem
  | cons x xs ih =>
    have later : ∀ e ∈ scheduled (n + 1) xs, n ≤ e.wait := fun e mem => (Nat.le_succ n).trans (ih e mem)
    cases x with
    | none => exact later
    | some r => exact List.forall_mem_cons.mpr ⟨le_rfl, later⟩

/-- A schedule of no results is an empty queue. -/
theorem scheduled_replicate_none (n k : Nat) : scheduled n (List.replicate k none) = [] := by
  induction k generalizing n with
  | zero => rfl
  | succ k ih => exact ih (n + 1)

/-- The clock presents the first cycle of the lane's schedule and goes on with the rest. -/
theorem Lane.clock_scheduled {l : Lane} {x : Option Result} {xs : List (Option Result)} (queue : l.queue = scheduled 0 (x :: xs))
    (ok : ∀ r, x = some r → ResultOk r) (d : Nat) : (l.clock d).output = x ∧ (l.clock d).queue = scheduled 0 xs := by
  obtain ⟨r, rest, oldest, clocked⟩ | ⟨waiting, clocked⟩ := l.clock_cases d
  · cases x with
    | none =>
      have mem : (⟨0, r⟩ : InFlight) ∈ scheduled 1 xs := by
        have := queue.symm.trans oldest
        rw [scheduled] at this
        simp [this]
      exact absurd (scheduled_wait_ge _ mem) (by simp)
    | some r' =>
      obtain ⟨same, rfl⟩ := List.cons.inj (oldest.symm.trans queue)
      obtain rfl := (InFlight.mk.inj same).2
      rw [clocked]
      exact ⟨(Lane.present_ok (ok r rfl) d _).1, scheduled_age 0 xs⟩
  · cases x with
    | none =>
      rw [clocked, queue]
      exact ⟨Lane.presentNothing_output d _, scheduled_age 0 xs⟩
    | some r => exact absurd rfl (waiting ⟨0, r⟩ _ queue)

/-- A lane presents its schedule and then what it accepts, cycle by cycle. -/
theorem laneOutputs_scheduled {latency : Nat} {l : Lane} {xs : List (Option Result)} (queue : l.queue = scheduled 0 xs)
    (length : xs.length = latency) {ins : List (Option Result)} (ok : ∀ r, some r ∈ xs ++ ins → ResultOk r) (draw : Nat) :
    laneOutputs latency draw l ins = (xs ++ ins).take ins.length := by
  induction ins generalizing l xs draw with
  | nil => rw [laneOutputs, List.length_nil, List.take_zero]
  | cons i ins ih =>
    have go_on : ∀ l₀ : Lane, l₀.queue = scheduled 0 (xs ++ [i]) →
        (l₀.clock draw).output :: laneOutputs latency (draw + 1) (l₀.clock draw) ins = (xs ++ i :: ins).take (ins.length + 1) := by
      intro l₀ queue₀
      obtain ⟨x, ys, first⟩ := List.exists_cons_of_ne_nil (l := xs ++ [i]) (by simp)
      have whole : xs ++ i :: ins = x :: (ys ++ ins) := by rw [← List.singleton_append, ← List.append_assoc, first, List.cons_append]
      have stays : ys.length = latency := by
        have := congrArg List.length first
        simp at this
        omega
      rw [whole] at ok
      obtain ⟨output, rest⟩ := Lane.clock_scheduled (first ▸ queue₀) (fun r hr => ok r (by simp [hr])) draw
      rw [output, whole, List.take_succ_cons, ih rest stays fun r mem => ok r (List.mem_cons_of_mem _ mem)]
    cases i with
    | none => exact go_on l (by rw [scheduled_append, queue]; exact (List.append_nil _).symm)
    | some r => exact go_on (l.accept latency r) (by rw [scheduled_append, Lane.accept_queue, queue, length, Nat.zero_add]; rfl)

/-- Settles O48: an empty lane has a schedule of `LATENCY` empty cycles. -/
theorem laneIsADelayLine : Obligations.LaneIsADelayLine := by
  intro latency draw l ins empty ok
  have queue : l.queue = scheduled 0 (List.replicate latency none) := by rw [empty, scheduled_replicate_none]
  have good : ∀ r, some r ∈ List.replicate latency none ++ (ins ++ List.replicate latency none) → ResultOk r := by
    intro r mem
    simp [List.mem_replicate] at mem
    exact ok r mem
  rw [laneOutputs_scheduled queue List.length_replicate good, ← List.append_assoc]
  exact List.take_left' (by simp [Nat.add_comm])

/-! ## A word's output on time -/

/-- A transaction of lane `k` with result `r` is due in `c` cycles. -/
def State.Due (k c : Nat) (r : Result) (s : State) : Prop := ∃ l, s.lanes[k]? = some l ∧ ⟨c, r⟩ ∈ l.queue

/-- A run of one step more goes through the first step's next state. -/
theorem core_run_succ {M : Host.Core} {n : Nat} {s t : M.State} :
    M.run (n + 1) s = .next t ↔ ∃ s', M.step s = .next s' ∧ M.run n s' = .next t := by
  rw [Host.Core.run]
  cases M.step s with
  | next s' => exact ⟨fun answer => ⟨s', rfl, answer⟩, fun ⟨_, same, answer⟩ => Host.Outcome.next.inj same ▸ answer⟩
  | fault r => exact ⟨fun answer => (nomatch answer), fun ⟨_, same, _⟩ => (nomatch same)⟩
  | refused r => exact ⟨fun answer => (nomatch answer), fun ⟨_, same, _⟩ => (nomatch same)⟩

/-- The same of this machine. -/
theorem run_succ {n : Nat} {s t : State} :
    Host.Core.run Sys2Proof.core (n + 1) s = .next t ↔ ∃ s', step s = .next s' ∧ Host.Core.run Sys2Proof.core n s' = .next t :=
  core_run_succ (M := Sys2Proof.core)

/-- Reset stays released. -/
theorem State.endSlot_resetLine {u : State} (released : u.resetLine = false) : u.endSlot.resetLine = false := by
  obtain ⟨_, h⟩ | ⟨_, _, h⟩ | ⟨_, _, h⟩ := u.endSlot_cases <;> simp [h, released]

/-- A transaction that is due is presented, and one that is not is one cycle nearer. -/
theorem Lane.clock_due {l : Lane} {bound c : Nat} {r : Result} (queue : l.QueueOk bound) (mem : ⟨c, r⟩ ∈ l.queue) (d : Nat) :
    (c = 0 → (l.clock d).output = some r) ∧ (∀ c', c = c' + 1 → ⟨c', r⟩ ∈ (l.clock d).queue) := by
  obtain ⟨r₀, rest, oldest, clocked⟩ | ⟨waiting, clocked⟩ := l.clock_cases d
  · rw [oldest] at mem
    obtain same | later := List.mem_cons.mp mem
    · obtain ⟨rfl, rfl⟩ := InFlight.mk.inj same
      refine ⟨fun _ => ?_, fun c' hc => by omega⟩
      rw [clocked]
      exact (Lane.present_ok (queue.2 ⟨0, r⟩ (by simp [oldest])).2 d _).1
    · have positive : 0 < c := Lane.waits_pos_of_due queue oldest _ later
      refine ⟨fun zero => by omega, ?_⟩
      rintro c' rfl
      rw [clocked]
      exact List.mem_map_of_mem (f := InFlight.age) later
  · have positive : 0 < c := Lane.waits_pos queue waiting _ mem
    refine ⟨fun zero => by omega, ?_⟩
    rintro c' rfl
    rw [clocked]
    exact List.mem_map_of_mem (f := InFlight.age) mem

/-- A turn takes nothing out of a queue. -/
theorem LaneTurn.due {s u : State} (turn : LaneTurn s u) {k c : Nat} {r : Result} (due : s.Due k c r) : u.Due k c r := by
  obtain ⟨l, lane, mem⟩ := due
  obtain rfl | other := eq_or_ne k s.slot
  · obtain ⟨l', lane', turned⟩ := turn.currentLane lane
    refine ⟨l', lane', ?_⟩
    obtain same | ⟨r', _, more⟩ := turned.queue
    · exact same ▸ mem
    · exact more ▸ List.mem_append_left _ mem
  · exact ⟨l, (turn.otherLane other).trans lane, mem⟩

/-- From a turn taken in lane `u.slot`, a transaction due in `c` cycles is presented at the end of the `c`th cycle on. -/
theorem output_of_due {k : Nat} {r : Result} {t : State} (n : Nat) {u : State} {c : Nat} (slot_lt : u.slot < u.build.laneCount)
    (inv : u.InvAt (u.slot + 1)) (released : u.resetLine = false) (due : u.Due k c r)
    (turns : n + 1 = u.build.laneCount - u.slot + c * u.build.laneCount)
    (answer : Host.Core.run Sys2Proof.core n u.endSlot = .next t) :
    t.slot = 0 ∧ ∃ l, t.lanes[k]? = some l ∧ l.output = some r := by
  induction n using Nat.strong_induction_on generalizing u c with
  | _ n ih =>
    have inv' : u.endSlot.Inv := State.inv_endSlot slot_lt inv
    have go_on : ∀ c', u.endSlot.Due k c' r → n = u.build.laneCount - u.endSlot.slot + c' * u.build.laneCount →
        t.slot = 0 ∧ ∃ l, t.lanes[k]? = some l ∧ l.output = some r := by
      intro c' due' turns'
      have slot_lt' := inv'.slot_lt
      rw [State.endSlot_build] at slot_lt'
      obtain ⟨n, rfl⟩ : ∃ m, n = m + 1 := ⟨n - 1, by omega⟩
      obtain ⟨s', step', answer'⟩ := run_succ.mp answer
      obtain ⟨notFatal, u', turn, rfl⟩ := turn_of_step step'
      refine ih n (Nat.lt_succ_self n) ?_ (turn.slot ▸ turn.invAt notFatal inv') ?_ (turn.due due') ?_ answer'
      · rw [turn.slot, turn.build]
        exact inv'.slot_lt
      · rw [turn.resetLine]
        exact State.endSlot_resetLine released
      · rw [turn.slot, turn.build, State.endSlot_build]
        exact turns'
    obtain ⟨l, lane, mem⟩ := due
    obtain ⟨within, h⟩ | ⟨_, reset, _⟩ | ⟨last, _, h⟩ := u.endSlot_cases
    · refine go_on c (h ▸ ⟨l, lane, mem⟩) ?_
      rw [h]
      dsimp only
      omega
    · nomatch released.symm.trans reset
    · have clocked : u.endSlot.lanes[k]? = some (l.clock (u.drawn + k)) := by
        rw [h, State.tick_lanes, clockLanes_getElem?, lane]
        rfl
      obtain ⟨now, later⟩ := Lane.clock_due (inv.queues k l lane) mem (u.drawn + k)
      cases c with
      | zero =>
        obtain rfl : n = 0 := by omega
        obtain rfl : u.endSlot = t := Host.Outcome.next.inj answer
        exact ⟨by rw [h, State.tick_slot], _, clocked, now rfl⟩
      | succ c =>
        refine go_on c ⟨_, clocked, later c rfl⟩ ?_
        rw [h, State.tick_slot]
        rw [Nat.succ_mul] at turns
        omega

/-- Settles O49: the word's turn puts its decode into the current lane's queue, due in `LATENCY` cycles (`output_of_due`). -/
theorem outputComesAfterLatencyCycles : Obligations.OutputComesAfterLatencyCycles := by
  intro s t w rest inv released next answer
  have turn := LaneTurn.decoded next released
  have slot_lt := inv.slot_lt
  obtain ⟨n, turns⟩ : ∃ n, s.build.laneCount - s.slot + s.build.latency * s.build.laneCount = n + 1 :=
    ⟨s.build.laneCount - s.slot + s.build.latency * s.build.laneCount - 1, by omega⟩
  rw [turns] at answer
  obtain ⟨s', step', answer'⟩ := run_succ.mp answer
  obtain rfl := Host.Outcome.next.inj ((step_of_word next released).symm.trans step')
  have inside : s.slot < s.lanes.length := inv.lanes_count ▸ slot_lt
  refine output_of_due n (u := (s.presentWord w rest).start (decodeToResult s.build w)) (c := s.build.latency) slot_lt
    (turn.invAt (State.notFatal_of_nextEvent next) inv) released ?_ turns.symm answer'
  refine ⟨_, State.start_currentLane (l := s.lanes[s.slot].driveWord w) _ ?_, List.mem_append_right _ (List.mem_singleton_self _)⟩
  rw [State.presentWord_slot, State.presentWord_lanes, List.getElem?_modify_eq, List.getElem?_eq_getElem inside]
  rfl

end Sys2Proof.Machine
end

section
/-! What a run comes to (60_exceptions.md R110), and that every step keeps it. -/

namespace Sys2Proof.Machine

/-! ## Runs over events -/

/-- The lines of the words and the first error among them, then the events that follow. -/
theorem runFrom_words (b : Build) (out : List (List Byte)) (ws : List Word) (events : List Event) :
    runFrom b out (ws.map Event.word ++ events) =
      (if (takeResults out (ws.map (decodeToResult b))).2 = none
        then runFrom b (takeResults out (ws.map (decodeToResult b))).1 events
        else takeResults out (ws.map (decodeToResult b))) := by
  induction ws generalizing out with
  | nil => rfl
  | cons w ws ih =>
    rw [List.map_cons, List.cons_append, runFrom, List.map_cons]
    cases decodeToResult b w with
    | line t => exact ih (out ++ [t])
    | error k => rfl

/-- A terminating event gives the run its status, whatever follows. -/
theorem runFrom_terminal (b : Build) (out : List (List Byte)) {e : Event} {f : FinalStatus} (terminal : e.terminal = some f)
    (rest : List Event) : runFrom b out (e :: rest) = (out, some f) := by
  cases e with
  | word w => nomatch terminal
  | endOfInput | truncated | readFail => exact congrArg (out, ·) terminal

/-- Settles O51: the words' results first, then the terminating event or the end of the list. -/
theorem runEndsAtTheFirstTerminatingEvent : Obligations.RunEndsAtTheFirstTerminatingEvent := by
  intro b ws e f rest terminal
  have whole := runFrom_words b [] ws
  refine ⟨(whole (e :: rest)).trans ?_, ?_⟩
  · rw [runFrom_terminal b _ terminal]
    obtain ⟨out, status⟩ := takeResults [] (ws.map (decodeToResult b))
    cases status <;> rfl
  · have alone := whole []
    rw [List.append_nil] at alone
    refine alone.trans ?_
    obtain ⟨out, status⟩ := takeResults [] (ws.map (decodeToResult b))
    cases status <;> rfl

/-! ## The results in flight -/

/-- The results of a lane that are due in `w` cycles: one at most, by the invariant. -/
def Lane.dueIn (w : Nat) (l : Lane) : List Result := (l.queue.filter fun e => e.wait == w).map InFlight.result

theorem State.pending_eq (s : State) : s.pending = (List.range (s.build.latency + 1)).flatMap fun w => s.lanes.flatMap (Lane.dueIn w) := rfl

/-- With nothing in flight nothing is pending. -/
theorem State.pending_of_drained {s : State} (drained : s.drained = true) : s.pending = [] := by
  have nothing : ∀ w, s.lanes.flatMap (Lane.dueIn w) = [] := fun w =>
    List.flatMap_eq_nil_iff.mpr fun l hl => by rw [Lane.dueIn, s.drained_iff.mp drained l hl]; rfl
  simp [State.pending_eq, nothing]

/-- Settles O52: nothing is in flight in a machine just loaded. -/
theorem loadedMachineComesToItsRun : Obligations.LoadedMachineComesToItsRun := by
  intro b m
  have drained : (State.loaded b m).drained = true := (State.drained_iff _).mpr fun l hl => by
    obtain ⟨n, rfl⟩ := mem_afterReset_lanes (b := b) hl
    rfl
  rw [State.outcome, State.pending_of_drained drained]
  rfl

/-- The pending results depend on the queues and `LATENCY` alone. -/
theorem State.pending_of_queues {s u : State} (build : u.build = s.build) (queues : u.lanes.map Lane.queue = s.lanes.map Lane.queue) :
    u.pending = s.pending := by
  have byQueues : ∀ (w : Nat) (ls : List Lane), ls.flatMap (Lane.dueIn w) =
      (ls.map Lane.queue).flatMap fun q => (q.filter fun e => e.wait == w).map InFlight.result := fun w ls => by
    rw [List.flatMap_map]; rfl
  simp only [State.pending_eq, byQueues, build, queues]

/-- Ageing a queue in which nothing is due makes what was due in `w + 1` cycles due in `w`. -/
theorem age_due {q : List InFlight} (waits : ∀ e ∈ q, 0 < e.wait) (w : Nat) :
    ((q.map InFlight.age).filter fun e => e.wait == w).map InFlight.result =
      (q.filter fun e => e.wait == w + 1).map InFlight.result := by
  rw [List.filter_map, List.map_map]
  have same : q.filter ((fun e => e.wait == w) ∘ InFlight.age) = q.filter fun e => e.wait == w + 1 := by
    refine List.filter_congr fun e he => ?_
    have := waits e he
    rw [Bool.eq_iff_iff, Function.comp_apply, InFlight.age_wait, beq_iff_eq, beq_iff_eq]
    omega
  rw [same]
  rfl

/-- The clock presents what is due now, and brings the rest one cycle nearer. -/
theorem Lane.clock_dueIn {l : Lane} {bound : Nat} (queue : l.QueueOk bound) (d : Nat) :
    (l.clock d).output.toList = l.dueIn 0 ∧ ∀ w, (l.clock d).dueIn w = l.dueIn (w + 1) := by
  obtain ⟨r, rest, oldest, clocked⟩ | ⟨waiting, clocked⟩ := l.clock_cases d
  · have later := Lane.waits_pos_of_due queue oldest
    have output := (Lane.present_ok (queue.2 ⟨0, r⟩ (by simp [oldest])).2 d { l with queue := rest.map InFlight.age }).1
    have restNow : rest.filter (fun e => e.wait == 0) = [] :=
      List.filter_eq_nil_iff.mpr fun e he => by simpa using (later e he).ne'
    rw [clocked]
    refine ⟨?_, fun w => ?_⟩
    · rw [output, Lane.dueIn, oldest, List.filter_cons_of_pos rfl, restNow]
      rfl
    · rw [Lane.dueIn, Lane.dueIn, oldest, List.filter_cons_of_neg (by simp)]
      exact age_due later w
  · have waits := Lane.waits_pos queue waiting
    have now : l.queue.filter (fun e => e.wait == 0) = [] :=
      List.filter_eq_nil_iff.mpr fun e he => by simpa using (waits e he).ne'
    rw [clocked]
    refine ⟨?_, fun w => age_due waits w⟩
    rw [Lane.presentNothing_output, Lane.dueIn, now]
    rfl

/-- What is collected of clocked lanes is what is collected of the lanes before, if it is so of each lane. -/
theorem flatMap_clockLanes {α : Type} {F : Nat → Lane → Lane} {f g : Lane → List α} {ls : List Lane}
    (each : ∀ l ∈ ls, ∀ d, g (F d l) = f l) (d : Nat) : (clockLanes F d ls).flatMap g = ls.flatMap f := by
  induction ls generalizing d with
  | nil => rfl
  | cons l ls ih =>
    rw [clockLanes, List.flatMap_cons, List.flatMap_cons, each l (List.mem_cons_self ..) d,
      ih (fun l' hl' => each l' (List.mem_cons_of_mem _ hl')) (d + 1)]

/-- The end of a cycle presents what is due now, and leaves pending what is due later. -/
theorem State.pending_tick {u : State} (inv : u.InvAt u.build.laneCount) : u.pending = u.presented ++ u.tick.pending := by
  have queues : ∀ l ∈ u.lanes, l.QueueOk (u.build.latency + 1) := fun l hl => by
    obtain ⟨k, lane⟩ := List.mem_iff_getElem?.mp hl
    have inside : k < u.build.laneCount := inv.lanes_count ▸ (List.getElem?_eq_some_iff.mp lane).1
    have queue := inv.queues k l lane
    rwa [if_pos inside] at queue
  have now : u.presented = u.lanes.flatMap (Lane.dueIn 0) := by
    rw [State.presented, List.filterMap_eq_flatMap_toList, State.tick_lanes]
    exact flatMap_clockLanes (fun l hl d => (Lane.clock_dueIn (queues l hl) d).1) _
  have later : ∀ w, u.tick.lanes.flatMap (Lane.dueIn w) = u.lanes.flatMap (Lane.dueIn (w + 1)) := fun w => by
    rw [State.tick_lanes]
    exact flatMap_clockLanes (fun l hl d => (Lane.clock_dueIn (queues l hl) d).2 w) _
  have last : u.lanes.flatMap (Lane.dueIn (u.build.latency + 1)) = [] :=
    List.flatMap_eq_nil_iff.mpr fun l hl => by
      rw [Lane.dueIn, List.map_eq_nil_iff, List.filter_eq_nil_iff]
      exact fun e he => by simpa using ((queues l hl).2 e he).1.ne
  rw [State.pending_eq, State.pending_eq, now, State.tick_build, List.range_succ_eq_map, List.flatMap_cons, List.flatMap_map,
    ← List.range_succ_eq_map, List.range_succ, List.flatMap_append, List.flatMap_singleton, later, last, List.append_nil]
  simp only [later]

/-- Where the results collected of one lane get one more behind them, and the lanes after it have none, so do the results of all lanes. -/
theorem flatMap_modify_append {α : Type} {f : Lane → List α} {g : Lane → Lane} {r : α} (adds : ∀ l, f (g l) = f l ++ [r])
    {ls : List Lane} {k : Nat} (inside : k < ls.length) (later : ∀ j l, k < j → ls[j]? = some l → f l = []) :
    (ls.modify k g).flatMap f = ls.flatMap f ++ [r] := by
  induction ls generalizing k with
  | nil => nomatch inside
  | cons l ls ih =>
    cases k with
    | zero =>
      have none : ls.flatMap f = [] := List.flatMap_eq_nil_iff.mpr fun l' hl' => by
        obtain ⟨j, lane⟩ := List.mem_iff_getElem?.mp hl'
        exact later (j + 1) l' (Nat.succ_pos j) lane
      rw [List.modify_zero_cons, List.flatMap_cons, List.flatMap_cons, none, adds, List.append_nil, List.append_nil]
    | succ k =>
      rw [List.modify_succ_cons, List.flatMap_cons, List.flatMap_cons,
        ih (Nat.lt_of_succ_lt_succ inside) fun j l' hj lane => later (j + 1) l' (Nat.succ_lt_succ hj) lane, List.append_assoc]

/-- An accepted result is due in the cycle it was accepted for, and in no other. -/
theorem Lane.dueIn_accept (latency : Nat) (r : Result) (l : Lane) :
    (l.accept latency r).dueIn latency = l.dueIn latency ++ [r] ∧ ∀ w < latency, (l.accept latency r).dueIn w = l.dueIn w := by
  constructor
  · rw [Lane.dueIn, Lane.accept_queue, List.filter_append, List.filter_cons_of_pos (by simp), List.map_append]
    rfl
  · intro w sooner
    rw [Lane.dueIn, Lane.accept_queue, List.filter_append, List.filter_cons_of_neg (by simpa using sooner.ne'), List.filter_nil,
      List.append_nil]
    rfl

/-- A transaction that the current lane starts is the last of all in stream order (20_memory.md R37). -/
theorem State.pending_start {s : State} (inv : s.Inv) (w : Word) (rest : List MediumItem) (r : Result) :
    ((s.presentWord w rest).start r).pending = s.pending ++ [r] := by
  have lanes : ((s.presentWord w rest).start r).lanes =
      s.lanes.modify s.slot (Lane.accept s.build.latency r ∘ Lane.driveWord w) := List.modify_modify_eq _ _ _ _
  have inside : s.slot < s.lanes.length := inv.lanes_count ▸ inv.slot_lt
  have sooner : ∀ d ∈ List.range s.build.latency, ((s.presentWord w rest).start r).lanes.flatMap (Lane.dueIn d) =
      s.lanes.flatMap (Lane.dueIn d) := fun d hd => by
    have keeps : ∀ l, Lane.dueIn d ((Lane.accept s.build.latency r ∘ Lane.driveWord w) l) = Lane.dueIn d l := fun l =>
      (Lane.dueIn_accept s.build.latency r (l.driveWord w)).2 d (List.mem_range.mp hd)
    rw [lanes, List.flatMap_def, List.flatMap_def, map_modify_same keeps]
  have last : ((s.presentWord w rest).start r).lanes.flatMap (Lane.dueIn s.build.latency) =
      s.lanes.flatMap (Lane.dueIn s.build.latency) ++ [r] := by
    rw [lanes]
    refine flatMap_modify_append (fun l => (Lane.dueIn_accept s.build.latency r (l.driveWord w)).1) inside fun j l behind lane => ?_
    have queue := inv.queues j l lane
    rw [if_neg (by omega)] at queue
    rw [Lane.dueIn, List.map_eq_nil_iff, List.filter_eq_nil_iff]
    exact fun e he => by simpa using (queue.2 e he).1.ne
  rw [State.pending_eq, State.pending_eq, State.start_build, State.presentWord_build, List.range_succ, List.flatMap_append,
    List.flatMap_append, List.flatMap_singleton, List.flatMap_singleton, last, ← List.append_assoc]
  exact congrArg (· ++ _ ++ [r]) (List.flatMap_congr sooner)

/-! ## The outcome of a run -/

/-- What the run comes to once its results in flight are out: the reads' status, or the run over the events still on the medium. -/
def State.outcomeAfter (s : State) (out : List (List Byte)) : List (List Byte) × Option FinalStatus :=
  match s.readsEnded with
  | some f => (out, some f)
  | none => runFrom s.build out (eventsOf s.build.firstByteIsHigh s.medium)

theorem State.outcomeAfter_of_ended {s : State} {f : FinalStatus} (reads : s.readsEnded = some f) (out : List (List Byte)) :
    s.outcomeAfter out = (out, some f) := by
  rw [State.outcomeAfter, reads]

theorem State.outcomeAfter_of_reading {s : State} (reads : s.readsEnded = none) (out : List (List Byte)) :
    s.outcomeAfter out = runFrom s.build out (eventsOf s.build.firstByteIsHigh s.medium) := by
  rw [State.outcomeAfter, reads]

/-- A word read goes on to the results in flight behind all others. -/
theorem State.outcomeAfter_of_word {s : State} {w : Word} {rest : List MediumItem} (reads : s.readsEnded = none)
    (read : readAttempt s.build.firstByteIsHigh s.medium = some (.word w, rest)) (out : List (List Byte)) :
    s.outcomeAfter out = if (takeResults out [decodeToResult s.build w]).2 = none
      then ((s.presentWord w rest).start (decodeToResult s.build w)).outcomeAfter (takeResults out [decodeToResult s.build w]).1
      else takeResults out [decodeToResult s.build w] := by
  rw [State.outcomeAfter_of_reading reads, (eventsOf_of_readAttempt read).1, runFrom,
    State.outcomeAfter_of_reading (s := (s.presentWord w rest).start _) reads]
  cases decodeToResult s.build w <;> rfl

/-- A run that is over has come to what it is. -/
theorem State.outcome_of_ended {s : State} {f : FinalStatus} (ended : s.finalStatus = some f) : s.outcome = (s.emitted, some f) := by
  rw [State.outcome, ended]

/-- A run goes through the results in flight and, without an error among them, through what is still to be read. -/
theorem State.outcome_of_running {s : State} (running : s.finalStatus = none) :
    s.outcome = if (takeResults s.emitted s.pending).2 = none then s.outcomeAfter (takeResults s.emitted s.pending).1
      else takeResults s.emitted s.pending := by
  rw [State.outcome, running]
  obtain ⟨out, status⟩ := takeResults s.emitted s.pending
  cases status <;> rfl

/-- A turn keeps what the run comes to. -/
theorem LaneTurn.outcome {s u : State} (turn : LaneTurn s u) (inv : s.Inv) (released : s.resetLine = false) : u.outcome = s.outcome := by
  cases status : s.finalStatus with
  | some f => rw [State.outcome_of_ended status, State.outcome_of_ended (turn.finalStatus.trans status), turn.emitted]
  | none =>
    rw [State.outcome_of_running status, State.outcome_of_running (turn.finalStatus.trans status), turn.emitted]
    cases turn with
    | dropped _ reset => exact absurd (released.symm.trans reset) (by decide)
    | @decoded w rest next =>
      obtain ⟨reads, _, read⟩ := State.nextEvent_eq_some.mp next
      rw [State.pending_start inv, takeResults_append]
      by_cases noError : (takeResults s.emitted s.pending).2 = none
      · rw [if_pos noError, if_pos noError, State.outcomeAfter_of_word reads read]
      · rw [if_neg noError, if_neg noError, if_neg noError]
    | @ended e f rest terminal next =>
      obtain ⟨reads, _, read⟩ := State.nextEvent_eq_some.mp next
      have noWord : ∀ w rest, s.nextEvent ≠ some (.word w, rest) := fun w rest' word => by
        obtain ⟨rfl, rfl⟩ := State.nextEvent_unique next word
        nomatch terminal
      rw [State.pending_of_queues (s := s) (u := s.endReads f rest) rfl ((LaneTurn.ended terminal next).queues_of_noWord noWord),
        State.outcomeAfter_of_reading reads, (eventsOf_of_readAttempt read).1, runFrom_terminal _ _ terminal,
        State.outcomeAfter_of_ended (State.endReads_readsEnded f rest s)]
    | waited next =>
      have noWord : ∀ w rest, s.nextEvent ≠ some (.word w, rest) := by simp [next]
      have after : ∀ out, s.waitTurn.outcomeAfter out = s.outcomeAfter out := fun out => by
        cases reads : s.readsEnded with
        | some f => rw [State.outcomeAfter_of_ended reads, State.outcomeAfter_of_ended (s := s.waitTurn) reads]
        | none =>
          rw [State.outcomeAfter_of_reading reads, State.outcomeAfter_of_reading (s := s.waitTurn) reads, State.waitTurn_medium,
            if_pos (s.reading_iff.mpr ⟨reads, status⟩), State.waitTurn_build, eventsOf_passPause]
      rw [State.pending_of_queues (s := s) (u := s.waitTurn) rfl ((LaneTurn.waited next).queues_of_noWord noWord), after]

/-- The end of a cycle keeps what the run comes to. -/
theorem State.outcome_tick {u : State} (inv : u.InvAt u.build.laneCount) : u.tick.outcome = u.outcome := by
  cases status : u.finalStatus with
  | some f =>
    obtain ⟨emitted, status'⟩ := State.tick_of_ended status
    rw [State.outcome_of_ended status, State.outcome_of_ended status', emitted]
  | none =>
    obtain ⟨emitted, status'⟩ := State.tick_of_running status
    have after : ∀ out, u.tick.outcomeAfter out = u.outcomeAfter out := fun out => by
      rw [State.outcomeAfter, State.outcomeAfter, State.tick_readsEnded, State.tick_build, State.tick_medium]
    rw [State.outcome_of_running status, State.pending_tick inv, takeResults_append]
    cases error : (takeResults u.emitted u.presented).2 with
    | some f =>
      rw [error] at status'
      rw [State.outcome_of_ended status', if_neg (Option.some_ne_none f), error, if_neg (Option.some_ne_none f), emitted, ← error]
    | none =>
      rw [error] at status'
      rw [if_pos rfl, ← emitted]
      cases status'' : u.tick.finalStatus with
      | none => rw [State.outcome_of_running status'']; simp only [after]
      | some f =>
        rw [status''] at status'
        obtain ⟨drained, reads⟩ : u.tick.drained = true ∧ u.readsEnded = some f := by
          by_cases drained : u.tick.drained = true
          · exact ⟨drained, by simpa [drained] using status'.symm⟩
          · simp [drained] at status'
        rw [State.outcome_of_ended status'', State.pending_of_drained drained, State.outcomeAfter_of_ended reads]
        rfl

/-- The end of a turn keeps what the run comes to. -/
theorem State.outcome_endSlot {u : State} (slot_lt : u.slot < u.build.laneCount) (inv : u.InvAt (u.slot + 1))
    (released : u.resetLine = false) : u.endSlot.outcome = u.outcome := by
  obtain ⟨_, h⟩ | ⟨_, reset, _⟩ | ⟨last, _, h⟩ := u.endSlot_cases
  · rw [h]
    rfl
  · exact absurd (released.symm.trans reset) (by decide)
  · have all : u.slot + 1 = u.build.laneCount := by omega
    rw [h, State.outcome_tick (all ▸ inv)]

/-- Settles O53: a turn and its end each keep what the run comes to. -/
theorem everyStepKeepsTheOutcomeOfTheRun : Obligations.EveryStepKeepsTheOutcomeOfTheRun := by
  intro s t inv released answer
  obtain ⟨notFatal, u, turn, rfl⟩ := turn_of_step answer
  have slot_lt : u.slot < u.build.laneCount := by rw [turn.slot, turn.build]; exact inv.slot_lt
  have served : u.InvAt (u.slot + 1) := turn.slot ▸ turn.invAt notFatal inv
  rw [State.outcome_endSlot slot_lt served (turn.resetLine.trans released), turn.outcome inv released]

end Sys2Proof.Machine
end

section
/-! A run that ends, ends in the machine in bounded time (60_exceptions.md R110, 70_reset_and_hazards.md R131). -/

namespace Sys2Proof.Machine

/-- A machine on its way to the end of its run: the invariant, reset released, no status yet, and a run that comes to `out` and `f`. -/
structure State.Underway (s : State) (out : List (List Byte)) (f : FinalStatus) : Prop where
  inv : s.Inv
  released : s.resetLine = false
  running : s.finalStatus = none
  outcome : s.outcome = (out, some f)

/-- The run is over in the machine within `n` steps, as it should be. -/
def State.FinishesWithin (n : Nat) (s : State) (out : List (List Byte)) (f : FinalStatus) : Prop :=
  ∃ k t, k ≤ n ∧ Host.Core.run Sys2Proof.core k s = .next t ∧ t.emitted = out ∧ t.finalStatus = some f

/-- A run that is over in the machine has come to what it is. -/
theorem State.finishesWithin_of_ended {s : State} {out : List (List Byte)} {f g : FinalStatus} (ended : s.finalStatus = some g)
    (outcome : s.outcome = (out, some f)) (n : Nat) : s.FinishesWithin n out f := by
  rw [State.outcome_of_ended ended] at outcome
  obtain ⟨rfl, same⟩ := Prod.mk.inj outcome
  exact ⟨0, s, Nat.zero_le n, rfl, rfl, ended.trans same⟩

/-- A bound may be raised. -/
theorem State.FinishesWithin.mono {s : State} {out : List (List Byte)} {f : FinalStatus} {n m : Nat} (finishes : s.FinishesWithin n out f)
    (le : n ≤ m) : s.FinishesWithin m out f := by
  obtain ⟨k, t, within, rest⟩ := finishes
  exact ⟨k, t, within.trans le, rest⟩

theorem State.Underway.notFatal {s : State} {out : List (List Byte)} {f : FinalStatus} (underway : s.Underway out f) : s.NotFatal :=
  fun _ fatal => Option.some_ne_none _ (fatal.symm.trans underway.running)

/-- One step, then the rest: the run is over after the step, or still on its way to its end. -/
theorem State.Underway.finishes_of_step {s : State} {out : List (List Byte)} {f : FinalStatus} (underway : s.Underway out f) {n : Nat}
    (go_on : ∀ t, step s = .next t → t.Underway out f → t.FinishesWithin n out f) : s.FinishesWithin (n + 1) out f := by
  obtain ⟨u, turn, answer⟩ := step_of_notFatal underway.notFatal
  have inv : u.endSlot.Inv := everyStepKeepsInv s _ underway.inv answer
  have outcome : u.endSlot.outcome = (out, some f) :=
    (everyStepKeepsTheOutcomeOfTheRun s _ underway.inv underway.released answer).trans underway.outcome
  have finishes : u.endSlot.FinishesWithin n out f := by
    cases status : u.endSlot.finalStatus with
    | some g => exact State.finishesWithin_of_ended status outcome n
    | none => exact go_on _ answer ⟨inv, State.endSlot_resetLine (turn.resetLine.trans underway.released), status, outcome⟩
  obtain ⟨k, t, within, run, result⟩ := finishes
  exact ⟨k + 1, t, Nat.succ_le_succ within, run_succ.mpr ⟨_, answer, run⟩, result⟩

/-- Nothing is left to read: the reads have ended, or the medium holds no event and no pause. -/
structure State.Quiet (s : State) : Prop where
  noEvent : s.nextEvent = none
  noPause : s.readsEnded = none → MediumItem.pause ∉ s.medium

/-- Every transaction in flight is due in `c` cycles at the most. -/
def State.DueWithin (c : Nat) (s : State) : Prop := ∀ l ∈ s.lanes, ∀ e ∈ l.queue, e.wait ≤ c

/-- What is in flight after the clock was before, and not due then. -/
theorem Lane.mem_clock_queue {l : Lane} {bound : Nat} (queue : l.QueueOk bound) {d : Nat} {e : InFlight} (mem : e ∈ (l.clock d).queue) :
    ∃ e₀ ∈ l.queue, 0 < e₀.wait ∧ e = e₀.age := by
  obtain ⟨r, rest, oldest, clocked⟩ | ⟨waiting, clocked⟩ := l.clock_cases d
  · rw [clocked] at mem
    obtain ⟨e₀, mem₀, rfl⟩ := List.mem_map.mp mem
    exact ⟨e₀, oldest ▸ List.mem_cons_of_mem _ mem₀, Lane.waits_pos_of_due queue oldest e₀ mem₀, rfl⟩
  · rw [clocked] at mem
    obtain ⟨e₀, mem₀, rfl⟩ := List.mem_map.mp mem
    exact ⟨e₀, mem₀, Lane.waits_pos queue waiting e₀ mem₀, rfl⟩

/-- What is in flight after the end of a cycle was before, and not due then. -/
theorem State.InvAt.mem_tick_queue {u : State} {n : Nat} (inv : u.InvAt n) {l : Lane} (hl : l ∈ u.tick.lanes) {e : InFlight}
    (mem : e ∈ l.queue) : ∃ l₀ ∈ u.lanes, ∃ e₀ ∈ l₀.queue, 0 < e₀.wait ∧ e = e₀.age := by
  rw [State.tick_lanes] at hl
  obtain ⟨l₀, mem₀, d, rfl⟩ := mem_clockLanes hl
  obtain ⟨k, lane⟩ := List.mem_iff_getElem?.mp mem₀
  exact ⟨l₀, mem₀, Lane.mem_clock_queue (inv.queues k l₀ lane) mem⟩

/-- The invariant bounds every wait by `LATENCY`. -/
theorem State.Inv.dueWithin {s : State} (inv : s.Inv) : s.DueWithin s.build.latency := fun l hl e he => by
  obtain ⟨k, lane⟩ := List.mem_iff_getElem?.mp hl
  have near := ((inv.queues k l lane).2 e he).1
  split_ifs at near <;> omega

/-- A quiet turn leaves the state quiet. -/
theorem State.Quiet.endSlot {s : State} (quiet : s.Quiet) (running : s.finalStatus = none) : s.waitTurn.endSlot.Quiet := by
  have reads : s.waitTurn.endSlot.readsEnded = s.readsEnded := State.endSlot_readsEnded _
  have medium : s.readsEnded = none → s.waitTurn.endSlot.medium = s.medium ∧ readAttempt s.build.firstByteIsHigh s.medium = none := by
    intro reading
    have reading' := s.reading_iff.mpr ⟨reading, running⟩
    have none := quiet.noEvent
    rw [State.nextEvent, if_pos reading'] at none
    refine ⟨?_, none⟩
    rw [State.endSlot_medium, State.waitTurn_medium, if_pos reading']
    have noPause := quiet.noPause reading
    obtain ⟨rest, paused⟩ | ⟨b, rest, paused⟩ | ⟨b, single⟩ | empty := readAttempt_none_cases none
    · exact absurd (by simp [paused]) noPause
    · exact absurd (by simp [paused]) noPause
    · rw [single]; rfl
    · rw [empty]; rfl
  constructor
  · cases next : s.waitTurn.endSlot.nextEvent with
    | none => rfl
    | some er =>
      obtain ⟨reading, _, read⟩ := State.nextEvent_eq_some.mp next
      obtain ⟨same, none⟩ := medium (reads ▸ reading)
      rw [same, State.endSlot_build] at read
      nomatch none.symm.trans read
  · intro reading
    rw [reads] at reading
    rw [(medium reading).1]
    exact quiet.noPause reading

/-- A quiet machine on its way whose reads go on still has something in flight: its medium gives no status. -/
theorem State.Underway.reads_of_drained {s : State} {out : List (List Byte)} {f : FinalStatus} (underway : s.Underway out f)
    (quiet : s.Quiet) (drained : s.drained = true) : s.readsEnded ≠ none := by
  intro reading
  have read := quiet.noEvent
  rw [State.nextEvent, if_pos (s.reading_iff.mpr ⟨reading, underway.running⟩)] at read
  have noEvents := ((readAttemptsYieldTheEventsInOrder s.build.firstByteIsHigh s.medium).2 read).2.2 (quiet.noPause reading)
  have outcome := underway.outcome
  rw [State.outcome_of_running underway.running, State.pending_of_drained drained, takeResults, if_pos rfl,
    State.outcomeAfter_of_reading reading, noEvents, runFrom] at outcome
  nomatch (Prod.mk.inj outcome).2

/-- A quiet machine on its way, with everything in flight due in `c` cycles at the most, is over in the rest of the cycle and `c` more. -/
theorem State.Underway.finishes_of_quiet {out : List (List Byte)} {f : FinalStatus} (n : Nat) {s : State} {c : Nat}
    (underway : s.Underway out f) (quiet : s.Quiet) (due : s.DueWithin c)
    (turns : n = s.build.laneCount - s.slot + c * s.build.laneCount) : s.FinishesWithin n out f := by
  induction n generalizing s c with
  | zero =>
    have := underway.inv.slot_lt
    omega
  | succ n ih =>
    refine underway.finishes_of_step fun t answer underway' => ?_
    have turn : LaneTurn s s.waitTurn := .waited quiet.noEvent
    obtain rfl := Host.Outcome.next.inj ((turn.answer underway.notFatal).symm.trans answer)
    have quiet' := quiet.endSlot underway.running
    have due' : s.waitTurn.DueWithin c := fun l hl e he => by
      obtain ⟨k, lane⟩ := List.mem_iff_getElem?.mp hl
      have queues := turn.queues_of_noWord (by simp [quiet.noEvent])
      have mem : l.queue ∈ s.lanes.map Lane.queue := queues ▸ List.mem_map_of_mem hl
      obtain ⟨l₀, mem₀, same⟩ := List.mem_map.mp mem
      exact due l₀ mem₀ e (same ▸ he)
    have slot_lt := underway.inv.slot_lt
    obtain ⟨within, h⟩ | ⟨_, reset, _⟩ | ⟨last, _, h⟩ := turn.endSlot_cases
    · refine ih (c := c) underway' quiet' (h ▸ due') ?_
      rw [h]
      dsimp only [State.waitTurn_build, State.waitTurn_slot]
      omega
    · exact absurd (underway.released.symm.trans reset) (by decide)
    · have inv' := turn.invAt underway.notFatal underway.inv
      have aged : ∀ c', c = c' + 1 → s.waitTurn.endSlot.DueWithin c' := fun c' hc l hl e he => by
        obtain ⟨l₀, mem₀, e₀, he₀, _, rfl⟩ := inv'.mem_tick_queue (h ▸ hl) he
        have := due' l₀ mem₀ e₀ he₀
        rw [InFlight.age_wait]
        omega
      cases c with
      | succ c =>
        refine ih underway' quiet' (aged c rfl) ?_
        rw [h, State.tick_slot, State.tick_build, State.waitTurn_build]
        rw [Nat.succ_mul] at turns
        omega
      | zero =>
        have drained : s.waitTurn.endSlot.drained = true := (State.drained_iff _).mpr fun l hl =>
          List.eq_nil_iff_forall_not_mem.mpr fun e he => by
            obtain ⟨l₀, mem₀, e₀, he₀, positive, _⟩ := inv'.mem_tick_queue (h ▸ hl) he
            exact absurd (due' l₀ mem₀ e₀ he₀) (by omega)
        refine absurd ?_ (underway'.reads_of_drained quiet' drained)
        have running := underway'.running
        rw [h, (State.tick_of_running (turn.finalStatus.trans underway.running)).2, ← h, drained] at running
        rw [State.endSlot_readsEnded]
        exact (Option.or_eq_none_iff.mp running).2

/-- A turn of a machine on its way that is not quiet shortens the medium. -/
theorem State.Underway.medium_shorter {s u : State} {out : List (List Byte)} {f : FinalStatus} (underway : s.Underway out f)
    (active : ¬ s.Quiet) (turn : LaneTurn s u) : u.medium.length < s.medium.length := by
  cases turn with
  | dropped next | decoded next | ended _ next =>
    obtain ⟨_, _, read⟩ := State.nextEvent_eq_some.mp next
    exact (eventsOf_of_readAttempt read).2
  | waited none =>
    obtain ⟨reading, pause⟩ : s.readsEnded = Option.none ∧ MediumItem.pause ∈ s.medium := by
      by_contra no
      exact active ⟨none, fun reading pause => no ⟨reading, pause⟩⟩
    have reading' := s.reading_iff.mpr ⟨reading, underway.running⟩
    rw [State.nextEvent, if_pos reading'] at none
    rw [State.waitTurn_medium, if_pos reading']
    exact ((readAttemptsYieldTheEventsInOrder s.build.firstByteIsHigh s.medium).2 none).2.1 pause

/-- A quiet machine on its way is over within `LATENCY` + 1 cycles. -/
theorem State.Underway.finishes_within_latency {s : State} {out : List (List Byte)} {f : FinalStatus} (underway : s.Underway out f)
    (quiet : s.Quiet) : s.FinishesWithin ((s.build.latency + 1) * s.build.laneCount) out f := by
  refine (underway.finishes_of_quiet _ quiet underway.inv.dueWithin rfl).mono ?_
  rw [Nat.succ_mul]
  omega

/-- A machine on its way is over within a turn for each item of its medium, and `LATENCY` + 1 cycles. -/
theorem State.Underway.finishes {out : List (List Byte)} {f : FinalStatus} (m : Nat) {s : State} (underway : s.Underway out f)
    (items : s.medium.length ≤ m) : s.FinishesWithin (m + (s.build.latency + 1) * s.build.laneCount) out f := by
  induction m generalizing s with
  | zero =>
    by_cases quiet : s.Quiet
    · exact (underway.finishes_within_latency quiet).mono (Nat.le_add_left _ _)
    · obtain ⟨u, turn⟩ := exists_laneTurn s
      have := underway.medium_shorter quiet turn
      omega
  | succ m ih =>
    by_cases quiet : s.Quiet
    · exact (underway.finishes_within_latency quiet).mono (Nat.le_add_left _ _)
    · rw [Nat.succ_add]
      refine underway.finishes_of_step fun t answer underway' => ?_
      obtain ⟨_, u, turn, rfl⟩ := turn_of_step answer
      have shorter := underway.medium_shorter quiet turn
      have rest := ih underway' (by rw [State.endSlot_medium]; omega)
      rwa [State.endSlot_build, turn.build] at rest

/-- Settles O54: a loaded machine is on its way to the end of its medium's run. -/
theorem machineFinishesItsRun : Obligations.MachineFinishesItsRun := by
  intro b m out f ends
  have inv : (State.loaded b m).Inv := { inv_afterReset b with }
  have underway : (State.loaded b m).Underway out f := ⟨inv, rfl, rfl, (loadedMachineComesToItsRun b m).trans ends⟩
  obtain ⟨n, t, within, answer, emitted, status⟩ := underway.finishes m.length le_rfl
  exact ⟨n, t, within, answer, emitted, status⟩

end Sys2Proof.Machine
end

section
/-! Unspecified values cannot be seen (10_state.md R19; 93 I6). -/

namespace Sys2Proof.Machine

/-! ## Lanes -/

theorem Lane.SameReadable.drive {a b : Lane} (same : a.SameReadable b) (w : Word) : (a.driveWord w).SameReadable (b.driveWord w) :=
  ⟨rfl, fun _ => rfl, same.queue, same.outValid, same.output⟩

/-- Nothing is read of the free word that stands where none is presented (10_state.md R18). -/
theorem Lane.SameReadable.driveNothing {a b : Lane} (same : a.SameReadable b) (d d' : Nat) :
    (a.driveNothing d).SameReadable (b.driveNothing d') :=
  ⟨rfl, fun valid => (nomatch valid), same.queue, same.outValid, same.output⟩

theorem Lane.SameReadable.accept {a b : Lane} (same : a.SameReadable b) (latency : Nat) (r : Result) :
    (a.accept latency r).SameReadable (b.accept latency r) :=
  ⟨same.inValid, same.inWord, by rw [Lane.accept_queue, Lane.accept_queue, same.queue], same.outValid, same.output⟩

/-- Below the length of a line `out_text` does not depend on the draw. -/
theorem padText_take_draw (d d' : Nat) {t : List Byte} {n : Nat} (within : n ≤ t.length) :
    (padText d t).take n = (padText d' t).take n := by
  refine List.ext_getElem (by simp) fun i h h' => ?_
  have hi : i < t.length := by simp at h; omega
  simp [padText, hi]

/-- Nothing is read of the free bytes behind a presented line, or of an error's text. -/
theorem Lane.present_output_draw (d d' : Nat) (r : Result) (a b : Lane) : (a.present d r).output = (b.present d' r).output := by
  cases r with
  | line t =>
    have within : (BitVec.ofNat 5 t.length).toNat ≤ t.length := by
      rw [BitVec.toNat_ofNat]
      exact Nat.mod_le _ _
    simp only [Lane.output, Lane.present_outValid, Lane.present_outStatus, Lane.present_outLen, Lane.present_outText, Result.status,
      Result.text, padText_take_draw d d' within]
  | error k => cases k <;> rfl

/-- The clock brings readable parts from readable parts, whatever it draws. -/
theorem Lane.SameReadable.clock {a b : Lane} (same : a.SameReadable b) (d d' : Nat) : (a.clock d).SameReadable (b.clock d') := by
  obtain ⟨r, rest, oldest, clocked⟩ | ⟨waiting, clocked⟩ := a.clock_cases d
  · obtain ⟨r', rest', oldest', clocked'⟩ | ⟨waiting', _⟩ := b.clock_cases d'
    · obtain ⟨sameFirst, rfl⟩ := List.cons.inj (oldest.symm.trans (same.queue.trans oldest'))
      obtain rfl := (InFlight.mk.inj sameFirst).2
      rw [clocked, clocked']
      exact ⟨same.inValid, same.inWord, rfl, rfl, Lane.present_output_draw d d' r _ _⟩
    · exact absurd rfl (waiting' ⟨0, r⟩ rest (same.queue.symm.trans oldest))
  · obtain ⟨r', rest', oldest', _⟩ | ⟨_, clocked'⟩ := b.clock_cases d'
    · exact absurd rfl (waiting ⟨0, r'⟩ rest' (same.queue.trans oldest'))
    · rw [clocked, clocked']
      exact ⟨same.inValid, same.inWord, congrArg (List.map InFlight.age) same.queue, rfl, rfl⟩

theorem Lane.SameReadable.clear {a b : Lane} (same : a.SameReadable b) (d d' : Nat) : (a.clear d).SameReadable (b.clear d') :=
  ⟨same.inValid, same.inWord, rfl, rfl, rfl⟩

/-! ## Lists of lanes -/

/-- Two related lists stay related when one place of each is changed by functions that keep the relation. -/
theorem forall₂_modify {R : Lane → Lane → Prop} {g g' : Lane → Lane} (keeps : ∀ a b, R a b → R (g a) (g' b)) {as bs : List Lane}
    (related : List.Forall₂ R as bs) (k : Nat) : List.Forall₂ R (as.modify k g) (bs.modify k g') := by
  induction related generalizing k with
  | nil => simp
  | cons first rest ih =>
    cases k with
    | zero => exact .cons (keeps _ _ first) rest
    | succ k => exact .cons first (ih k)

/-- Two related lists of lanes stay related when every lane is clocked or cleared, whatever is drawn. -/
theorem forall₂_clockLanes {R : Lane → Lane → Prop} {F : Nat → Lane → Lane} (keeps : ∀ a b, R a b → ∀ d d', R (F d a) (F d' b))
    {as bs : List Lane} (related : List.Forall₂ R as bs) (d d' : Nat) : List.Forall₂ R (clockLanes F d as) (clockLanes F d' bs) := by
  induction related generalizing d d' with
  | nil => exact .nil
  | cons first rest ih => exact .cons (keeps _ _ first d d') (ih (d + 1) (d' + 1))

/-- What is a function of the readable parts is the same on both lists. -/
theorem map_eq_of_forall₂ {α : Type} {f : Lane → α} (reads : ∀ a b, Lane.SameReadable a b → f a = f b) {as bs : List Lane}
    (related : List.Forall₂ Lane.SameReadable as bs) : as.map f = bs.map f := by
  induction related with
  | nil => rfl
  | cons first rest ih => rw [List.map_cons, List.map_cons, reads _ _ first, ih]

/-! ## States -/

section
variable {a b : State} (same : a.SameReadable b)
include same

theorem State.SameReadable.onLane {g g' : Lane → Lane} (keeps : ∀ l l', Lane.SameReadable l l' → (g l).SameReadable (g' l')) :
    (a.onLane g).SameReadable (b.onLane g') := by
  have lanes : List.Forall₂ Lane.SameReadable (a.onLane g).lanes (b.onLane g').lanes := by
    rw [State.onLane_lanes, State.onLane_lanes, same.slot]
    exact forall₂_modify keeps same.lanes b.slot
  exact { same with lanes := lanes }

theorem State.SameReadable.presentWord (w : Word) (rest : List MediumItem) : (a.presentWord w rest).SameReadable (b.presentWord w rest) :=
  State.SameReadable.onLane (a := { a with medium := rest }) (b := { b with medium := rest }) { same with medium := rfl }
    fun _ _ same => same.drive w

theorem State.SameReadable.presentNothing : a.presentNothing.SameReadable b.presentNothing :=
  State.SameReadable.onLane (a := { a with drawn := a.drawn + 1 }) (b := { b with drawn := b.drawn + 1 }) { same with }
    fun _ _ same => same.driveNothing a.drawn b.drawn

theorem State.SameReadable.start (r : Result) : (a.start r).SameReadable (b.start r) :=
  same.onLane fun _ _ lane => by
    rw [same.build]
    exact lane.accept b.build.latency r

theorem State.SameReadable.reading : a.reading = b.reading := by
  rw [State.reading, State.reading, same.readsEnded, same.finalStatus]

theorem State.SameReadable.nextEvent : a.nextEvent = b.nextEvent := by
  rw [State.nextEvent, State.nextEvent, same.reading, same.build, same.medium]

/-- What one state's turn makes of it, the other's makes of it but for unspecified values. -/
theorem State.SameReadable.turn {u : State} (turn : LaneTurn a u) : ∃ v, LaneTurn b v ∧ u.SameReadable v := by
  cases turn with
  | dropped next reset =>
    exact ⟨_, .dropped (same.nextEvent.symm.trans next) (same.resetLine.symm.trans reset), same.presentWord _ _⟩
  | @decoded w _ next released =>
    refine ⟨_, .decoded (same.nextEvent.symm.trans next) (same.resetLine.symm.trans released), ?_⟩
    rw [same.build]
    exact (same.presentWord _ _).start _
  | @ended e f rest terminal next =>
    refine ⟨_, .ended terminal (same.nextEvent.symm.trans next), ?_⟩
    exact State.SameReadable.presentNothing (a := { a with medium := rest, readsEnded := some f })
      (b := { b with medium := rest, readsEnded := some f }) { same with medium := rfl, readsEnded := rfl }
  | waited next =>
    refine ⟨_, .waited (same.nextEvent.symm.trans next), ?_⟩
    refine State.SameReadable.presentNothing (a := { a with medium := if a.reading then passPause a.medium else a.medium })
      (b := { b with medium := if b.reading then passPause b.medium else b.medium }) { same with medium := ?_ }
    rw [same.reading, same.medium]

theorem State.SameReadable.takeOutput (o : Option Result) : (a.takeOutput o).SameReadable (b.takeOutput o) := by
  have status := same.finalStatus
  cases run : a.finalStatus with
  | some f =>
    rw [show a.takeOutput o = a from State.takeOutputList_of_ended (by simp [run]) [o],
      show b.takeOutput o = b from State.takeOutputList_of_ended (by simp [← status, run]) [o]]
    exact same
  | none =>
    have run' : b.finalStatus = none := status.symm.trans run
    cases o with
    | none => simpa [State.takeOutput, run, run'] using same
    | some r => cases r with
      | line t =>
        simp only [State.takeOutput, run, run']
        exact { same with emitted := congrArg (· ++ [t]) same.emitted, finalStatus := rfl }
      | error k =>
        simp only [State.takeOutput, run, run']
        exact { same with finalStatus := rfl }

theorem State.SameReadable.drained : a.drained = b.drained :=
  State.drained_of_queues (map_eq_of_forall₂ (fun _ _ lane => lane.queue) same.lanes)

theorem State.SameReadable.settle : a.settle.SameReadable b.settle := by
  rw [State.settle, State.settle, same.finalStatus, same.drained]
  split_ifs
  · exact { same with finalStatus := same.readsEnded }
  · exact same

end

theorem State.SameReadable.takeOutputList {a b : State} (same : a.SameReadable b) (os : List (Option Result)) :
    (os.foldl State.takeOutput a).SameReadable (os.foldl State.takeOutput b) := by
  induction os generalizing a b with
  | nil => exact same
  | cons o os ih => exact ih (same.takeOutput o)

section
variable {a b : State} (same : a.SameReadable b)
include same

theorem State.SameReadable.takeOutputs : a.takeOutputs.SameReadable b.takeOutputs := by
  rw [State.takeOutputs, State.takeOutputs, map_eq_of_forall₂ (fun _ _ lane => lane.output) same.lanes]
  exact same.takeOutputList _

theorem State.SameReadable.tick : a.tick.SameReadable b.tick := by
  have clocked : a.clocked.SameReadable b.clocked :=
    { same with
      lanes := forall₂_clockLanes (fun _ _ lane => lane.clock) same.lanes a.drawn b.drawn
      slot := rfl }
  exact clocked.takeOutputs.settle

theorem State.SameReadable.resetTick : a.resetTick.SameReadable b.resetTick :=
  State.SameReadable.settle
    { same with
      lanes := forall₂_clockLanes (fun _ _ lane => lane.clear) same.lanes a.drawn b.drawn
      slot := rfl
      resetLine := rfl }

theorem State.SameReadable.endSlot : a.endSlot.SameReadable b.endSlot := by
  have slot := same.slot
  have build := same.build
  have resetLine := same.resetLine
  obtain ⟨within, ends⟩ | ⟨last, reset, ends⟩ | ⟨last, released, ends⟩ := a.endSlot_cases
  · have ends' : b.endSlot = { b with slot := b.slot + 1 } := by
      rw [State.endSlot, if_pos (by rwa [← slot, ← build])]
    rw [ends, ends']
    exact { same with slot := congrArg (· + 1) slot }
  · rw [ends, State.endSlot, if_neg (by rw [← slot, ← build]; omega), if_pos (resetLine.symm.trans reset)]
    exact same.resetTick
  · rw [ends, State.endSlot, if_neg (by rw [← slot, ← build]; omega), if_neg (by simp [← resetLine, released])]
    exact same.tick

end

/-- Settles O55: a fatal end is readable, and a turn and its end bring readable parts from readable parts. -/
theorem unspecifiedValuesCannotBeSeen : Obligations.UnspecifiedValuesCannotBeSeen := by
  intro a b same
  by_cases fatal : ∃ k, a.finalStatus = some (.fatal k)
  · obtain ⟨k, ended⟩ := fatal
    exact .inr ⟨_, step_of_fatal ended, step_of_fatal (same.finalStatus.symm.trans ended)⟩
  · have notFatal : a.NotFatal := fun k ended => fatal ⟨k, ended⟩
    have notFatal' : b.NotFatal := fun k ended => fatal ⟨k, same.finalStatus.trans ended⟩
    obtain ⟨u, turn, answer⟩ := step_of_notFatal notFatal
    obtain ⟨v, turn', after⟩ := same.turn turn
    exact .inl ⟨_, _, answer, turn'.answer notFatal', after.endSlot⟩

end Sys2Proof.Machine
end

section
/-! Causes of read failures are carried and never read (00_scope.md; log entry 7): every operation of a step commutes with renaming them. -/

namespace Sys2Proof.Machine

/-! ## Reading -/

/-- The event with its cause renamed. -/
def Event.mapCause (f : IoCause → IoCause) : Event → Event
  | .word w => .word w
  | .endOfInput => .endOfInput
  | .truncated => .truncated
  | .readFail c => .readFail (f c)

/-- A read attempt on the renamed medium gives the renamed event and leaves the renamed rest. -/
theorem readAttempt_mapCause (f : IoCause → IoCause) (high : Bool) (m : List MediumItem) :
    readAttempt high (m.map (MediumItem.mapCause f)) =
      (readAttempt high m).map fun (e, rest) => (e.mapCause f, rest.map (MediumItem.mapCause f)) :=
  match m with
  | [] | .pause :: _ | .endOfInput :: _ | .failure _ :: _ => rfl
  | [.byte _] | .byte _ :: .byte _ :: _ | .byte _ :: .pause :: _ | .byte _ :: .endOfInput :: _ | .byte _ :: .failure _ :: _ => rfl

theorem passPause_mapCause (f : IoCause → IoCause) (m : List MediumItem) :
    passPause (m.map (MediumItem.mapCause f)) = (passPause m).map (MediumItem.mapCause f) :=
  match m with
  | [] | .pause :: _ | .endOfInput :: _ | .failure _ :: _ => rfl
  | [.byte _] | .byte _ :: .byte _ :: _ | .byte _ :: .pause :: _ | .byte _ :: .endOfInput :: _ | .byte _ :: .failure _ :: _ => rfl

theorem Event.terminal_mapCause (f : IoCause → IoCause) (e : Event) : (e.mapCause f).terminal = e.terminal.map (FinalStatus.mapCause f) := by
  cases e <;> rfl

theorem State.reading_mapCause (f : IoCause → IoCause) (s : State) : (s.mapCause f).reading = s.reading := by
  simp [State.reading]

theorem State.nextEvent_mapCause (f : IoCause → IoCause) (s : State) :
    (s.mapCause f).nextEvent = s.nextEvent.map fun (e, rest) => (e.mapCause f, rest.map (MediumItem.mapCause f)) := by
  rw [State.nextEvent, State.reading_mapCause, State.mapCause_build, State.mapCause_medium, readAttempt_mapCause, State.nextEvent]
  split_ifs <;> rfl

/-! ## Lanes -/

/-- A decode raises no cause: `UndefinedOpcode` is the only error of the core (60_exceptions.md R106). -/
theorem decodeToResult_mapCause (f : IoCause → IoCause) (b : Build) (w : Word) : (decodeToResult b w).mapCause f = decodeToResult b w := by
  rw [decodeToResult_eq_lineText]
  split_ifs <;> rfl

theorem Lane.accept_mapCause (f : IoCause → IoCause) (latency : Nat) (r : Result) (l : Lane) :
    (l.accept latency r).mapCause f = (l.mapCause f).accept latency (r.mapCause f) := by
  simp [Lane.accept, Lane.mapCause]

theorem Lane.present_mapCause (f : IoCause → IoCause) (d : Nat) (r : Result) (l : Lane) :
    (l.present d r).mapCause f = (l.mapCause f).present d (r.mapCause f) := by
  simp [Lane.present, Lane.mapCause]

theorem Lane.clock_mapCause (f : IoCause → IoCause) (d : Nat) (l : Lane) : (l.clock d).mapCause f = (l.mapCause f).clock d := by
  obtain ⟨r, rest, queue, clocked⟩ | ⟨waiting, clocked⟩ := l.clock_cases d
  · obtain ⟨r', rest', queue', clocked'⟩ | ⟨waiting', _⟩ := (l.mapCause f).clock_cases d
    · rw [Lane.mapCause_queue, queue] at queue'
      obtain ⟨first, rfl⟩ := List.cons.inj queue'
      obtain rfl := (InFlight.mk.inj first).2
      rw [clocked, clocked', Lane.present_mapCause]
      simp [Lane.mapCause, InFlight.age, Function.comp_def]
    · exact absurd rfl (waiting' ⟨0, r.mapCause f⟩ _ (by rw [Lane.mapCause_queue, queue]; rfl))
  · obtain ⟨r', rest', queue', _⟩ | ⟨_, clocked'⟩ := (l.mapCause f).clock_cases d
    · obtain ⟨first, rest, queue, renamed, _⟩ := List.map_eq_cons_iff.mp (l.mapCause_queue f ▸ queue')
      exact absurd (InFlight.mk.inj renamed).1 (waiting first rest queue)
    · rw [clocked, clocked']
      simp [Lane.mapCause, Lane.presentNothing, InFlight.age, Function.comp_def]

/-! ## Lists of lanes -/

theorem modify_mapCause (f : IoCause → IoCause) {g g' : Lane → Lane} (commutes : ∀ l, (g l).mapCause f = g' (l.mapCause f))
    (k : Nat) (ls : List Lane) : (ls.modify k g).map (Lane.mapCause f) = (ls.map (Lane.mapCause f)).modify k g' := by
  induction ls generalizing k with
  | nil => simp
  | cons l ls ih =>
    cases k with
    | zero => simp [commutes]
    | succ k => simp [ih]

theorem clockLanes_mapCause (f : IoCause → IoCause) {F : Nat → Lane → Lane} (commutes : ∀ d l, (F d l).mapCause f = F d (l.mapCause f))
    (d : Nat) (ls : List Lane) : (clockLanes F d ls).map (Lane.mapCause f) = clockLanes F d (ls.map (Lane.mapCause f)) := by
  refine List.ext_getElem? fun k => ?_
  simp [commutes, Function.comp_def]

/-! ## Turns -/

theorem State.onLane_mapCause (f : IoCause → IoCause) {g g' : Lane → Lane} (commutes : ∀ l, (g l).mapCause f = g' (l.mapCause f))
    (s : State) : (s.onLane g).mapCause f = (s.mapCause f).onLane g' := by
  rw [State.onLane, State.mapCause, modify_mapCause f commutes]
  rfl

theorem State.presentWord_mapCause (f : IoCause → IoCause) (w : Word) (rest : List MediumItem) (s : State) :
    (s.presentWord w rest).mapCause f = (s.mapCause f).presentWord w (rest.map (MediumItem.mapCause f)) :=
  State.onLane_mapCause f (g := Lane.driveWord w) (g' := Lane.driveWord w) (fun _ => rfl) { s with medium := rest }

theorem State.presentNothing_mapCause (f : IoCause → IoCause) (s : State) : s.presentNothing.mapCause f = (s.mapCause f).presentNothing :=
  State.onLane_mapCause f (g := Lane.driveNothing s.drawn) (g' := Lane.driveNothing s.drawn) (fun _ => rfl) { s with drawn := s.drawn + 1 }

theorem State.start_mapCause (f : IoCause → IoCause) (r : Result) (s : State) : (s.start r).mapCause f = (s.mapCause f).start (r.mapCause f) :=
  State.onLane_mapCause f (Lane.accept_mapCause f s.build.latency r) s

/-- The renamed state takes the renamed turn. -/
theorem LaneTurn.mapCause {s u : State} (turn : LaneTurn s u) (f : IoCause → IoCause) : LaneTurn (s.mapCause f) (u.mapCause f) := by
  have renamed := s.nextEvent_mapCause f
  cases turn with
  | dropped next reset =>
    rw [State.presentWord_mapCause]
    exact .dropped (by rw [renamed, next]; rfl) reset
  | decoded next released =>
    rw [State.start_mapCause, State.presentWord_mapCause, decodeToResult_mapCause]
    exact .decoded (by rw [renamed, next]; rfl) released
  | @ended e status rest terminal next =>
    rw [show (s.endReads status rest).mapCause f = (s.mapCause f).endReads (status.mapCause f) (rest.map (MediumItem.mapCause f))
      from State.presentNothing_mapCause f _]
    exact .ended (e := e.mapCause f) (by rw [Event.terminal_mapCause, terminal]; rfl) (by rw [renamed, next]; rfl)
  | waited next =>
    have waits : s.waitTurn.mapCause f = (s.mapCause f).waitTurn := by
      rw [State.waitTurn, State.presentNothing_mapCause, State.waitTurn, State.reading_mapCause, State.mapCause_medium, passPause_mapCause,
        ← apply_ite (List.map (MediumItem.mapCause f))]
      rfl
    rw [waits]
    exact .waited (by rw [renamed, next]; rfl)

/-! ## The end of a turn -/

/-- A port shows no cause: its only error is `UndefinedOpcode` (10_state.md R19). -/
theorem Lane.output_error {l : Lane} {k : ErrorKind} (shown : l.output = some (.error k)) : k = .undefinedOpcode := by
  rw [Lane.output] at shown
  split_ifs at shown
  · nomatch Option.some.inj shown
  · exact (Result.error.inj (Option.some.inj shown)).symm

theorem State.takeOutput_mapCause (f : IoCause → IoCause) (s : State) (l : Lane) :
    (s.takeOutput l.output).mapCause f = (s.mapCause f).takeOutput l.output := by
  cases status : s.finalStatus with
  | some f => simp [State.takeOutput, status]
  | none =>
    cases shown : l.output with
    | none => simp
    | some r => cases r with
      | line t => simp [State.takeOutput, State.mapCause, status]
      | error k =>
        obtain rfl := Lane.output_error shown
        simp [State.takeOutput, State.mapCause, status, FinalStatus.mapCause, ErrorKind.mapCause]

theorem State.takeOutputList_mapCause (f : IoCause → IoCause) (s : State) (ls : List Lane) :
    ((ls.map Lane.output).foldl State.takeOutput s).mapCause f = (ls.map Lane.output).foldl State.takeOutput (s.mapCause f) := by
  induction ls generalizing s with
  | nil => rfl
  | cons l ls ih => rw [List.map_cons, List.foldl_cons, List.foldl_cons, ih, State.takeOutput_mapCause]

theorem State.takeOutputs_mapCause (f : IoCause → IoCause) (s : State) : s.takeOutputs.mapCause f = (s.mapCause f).takeOutputs := by
  have shown : (s.mapCause f).lanes.map Lane.output = s.lanes.map Lane.output := by
    rw [State.mapCause_lanes, List.map_map]
    rfl
  rw [State.takeOutputs, State.takeOutputs, shown, State.takeOutputList_mapCause]

theorem State.settle_mapCause (f : IoCause → IoCause) (s : State) : s.settle.mapCause f = (s.mapCause f).settle := by
  have drained : (s.mapCause f).drained = s.drained := by simp [State.drained, Function.comp_def]
  rw [State.settle, State.settle, drained, State.mapCause_finalStatus, Option.isNone_map]
  split_ifs <;> rfl

theorem State.tick_mapCause (f : IoCause → IoCause) (s : State) : s.tick.mapCause f = (s.mapCause f).tick := by
  have clocked : s.clocked.mapCause f = (s.mapCause f).clocked := by
    rw [State.clocked, State.mapCause, clockLanes_mapCause f (Lane.clock_mapCause f), State.clocked, State.mapCause_lanes, List.length_map]
    rfl
  rw [State.tick_eq, State.settle_mapCause, State.takeOutputs_mapCause, clocked, State.tick_eq]

theorem State.resetTick_mapCause (f : IoCause → IoCause) (s : State) : s.resetTick.mapCause f = (s.mapCause f).resetTick := by
  rw [State.resetTick, State.settle_mapCause, State.resetTick, State.mapCause_lanes, List.length_map,
    ← clockLanes_mapCause f (F := Lane.clear) fun _ _ => rfl]
  rfl

theorem State.endSlot_mapCause (f : IoCause → IoCause) (s : State) : s.endSlot.mapCause f = (s.mapCause f).endSlot := by
  rw [State.endSlot, State.endSlot, State.mapCause_slot, State.mapCause_build, State.mapCause_resetLine]
  split_ifs
  · rfl
  · exact s.resetTick_mapCause f
  · exact s.tick_mapCause f

/-! ## The step -/

theorem State.NotFatal.mapCause {s : State} (notFatal : s.NotFatal) (f : IoCause → IoCause) : (s.mapCause f).NotFatal := by
  intro k fatal
  obtain ⟨status, ended, renamed⟩ := Option.map_eq_some_iff.mp fatal
  cases status with
  | clean => nomatch renamed
  | fatal k' => exact notFatal k' ended

/-- Settles O57: a turn and its end commute with the renaming, and so does the fault of a run that ended with an error. -/
theorem causesAreCarriedAndNeverRead : Obligations.CausesAreCarriedAndNeverRead := by
  refine fun f s => ⟨fun t answer => ?_, fun r faults => ?_⟩
  · obtain ⟨notFatal, u, turn, rfl⟩ := turn_of_step answer
    rw [State.endSlot_mapCause]
    exact (turn.mapCause f).answer (notFatal.mapCause f)
  · obtain ⟨_, faultsOnlyFatal, _⟩ := stepsFaultExactlyAfterAFatalEnd
    obtain ⟨k, ended, rfl⟩ := faultsOnlyFatal s r faults
    rw [← ErrorKind.toFault_mapCause]
    exact step_of_fatal (by rw [State.mapCause_finalStatus, ended]; rfl)

end Sys2Proof.Machine
end
